-- ==== Sys2Proof/Word.lean ====
section
/-! DEFINITION. The words of E87-PFC: bytes, 32-bit register values, register numbers, the five fields
of a metadata byte, and the accesses a host may make. -/

namespace Sys2Proof

/-- The unit of the wire format and of both buffers (R75, `20_memory.md`). -/
abbrev Byte := BitVec 8

/-- The value of a host register (R24, `10_state.md`). -/
abbrev Word := BitVec 32

/-- A host register number, 0 to 31 (R24). -/
abbrev RegNum := BitVec 5

/-- The five fields of a metadata byte (R104, R145). `flag1` and `flag4` stay two named fields. -/
structure MetaFields where
  flag1 : Bool
  packetId : BitVec 4
  longFlag : Bool
  expectResponse : Bool
  flag4 : Bool
  deriving DecidableEq, Repr

/-- How the host reads a byte string it streams into the block: the wire formats of R114. -/
inductive WireFormat where
  | frame
  | metadata
  | command
  deriving DecidableEq, Repr

/-- One access of the host. `read n` and `write n v` are the encodings `(R, n)` and `(W, n, v)` of
R109 for `RegRead` and `RegWrite` (R24). `push f bs` is the pseudo-instruction `PUSH` of R110, one
`DIN` write per byte, of a byte string in the wire format `f` (log entry 3). `rst` is the reset input
going active and back (R250), which comes between two accesses (R252). -/
inductive Access where
  | read (n : RegNum)
  | write (n : RegNum) (v : Word)
  | push (f : WireFormat) (bs : List Byte)
  | rst
  deriving DecidableEq, Repr

end Sys2Proof
end

