-- ==== Sys2Proof/Config.lean ====
section
/-! DEFINITION. The implementation parameters of R6 to R9 (`00_scope.md`). -/

namespace Sys2Proof.Config

/-- `MARK` (R6, D3): the first byte of every frame the block builds. The spec leaves its value OPEN,
so it is a constant without a body and every statement holds whatever it is. -/
opaque mark : Byte

/-- The parameters of one instance of the block (R6 to R9). -/
structure Params where
  mark : Byte
  payloadMax : Nat
  malformedMax : Nat
  longLimit : Nat
  deriving DecidableEq, Repr

/-- `BUF_CAP = PAYLOAD_MAX + 6`, the capacity of each buffer (R7). -/
abbrev Params.bufCap (P : Params) : Nat := P.payloadMax + 6

/-- The values R7 and R8 allow. `LONG_LIMIT` may be any number: U2 asks for proofs over its name. -/
abbrev Params.Legal (P : Params) : Prop :=
  250 ≤ P.payloadMax ∧ P.payloadMax ≤ 65535 ∧ (P.malformedMax = 5 ∨ P.malformedMax = 6)

/-- The values the spec gives: `PAYLOAD_MAX = 65535` (R7), `MALFORMED_MAX = 5` (R8),
`LONG_LIMIT = 20` (R9), and the open `MARK` (R6). -/
abbrev params : Params where
  mark := mark
  payloadMax := 65535
  malformedMax := 5
  longLimit := 20

end Sys2Proof.Config
end

