-- ==== Sys2Proof/Machine/Codec.lean ====
section
/-! DEFINITION. The five pure functions of R11 (`checksum`, `meta_pack`, `meta_unpack`, `frame_encode`,
`frame_decode`) and the severities and exceptions they report. The parameters of R6 to R9 are arguments. -/

namespace Sys2Proof.Machine

open Sys2Proof.Config (Params)

/-! ## Checksum (R130 to R133, `40_checksum.md`) -/

/-- `s8(b)`: the signed reading of a byte (R12). -/
def s8 (b : Byte) : Int := b.toInt

/-- `u8(i)`: the byte congruent to `i` modulo 256 (R12). -/
def u8 (i : Int) : Byte := BitVec.ofInt 8 i

/-- `wrap8(i)`: 8-bit two's-complement wrap-around (R12). -/
def wrap8 (i : Int) : Int := s8 (u8 i)

/-- R130: sum each byte as a signed 8-bit value with wrap-around, then read the result as unsigned. -/
def checksum (s : List Byte) : Byte := u8 (s.foldl (fun acc b => wrap8 (acc + s8 b)) 0)

/-! ## Metadata byte (R140, R141, `41_metadata.md`) -/

/-- R140: `flag1`, `packet_id`, `long_flag`, `expect_response`, `flag4`, from bit 7 down to bit 0. -/
def metaPack (F : MetaFields) : Byte :=
  BitVec.ofBool F.flag1 ++ F.packetId ++ BitVec.ofBool F.longFlag ++ BitVec.ofBool F.expectResponse
    ++ BitVec.ofBool F.flag4

/-- R141: the five fields of a metadata byte. -/
def metaUnpack (m : Byte) : MetaFields where
  flag1 := m.getLsbD 7
  packetId := m.extractLsb' 3 4
  longFlag := m.getLsbD 2
  expectResponse := m.getLsbD 1
  flag4 := m.getLsbD 0

/-- Fields of the pattern `0iiiig10` that every frame built by `ENC` has (R105). -/
def builtMeta (m : MetaFields) : Bool := !m.flag1 && m.expectResponse && !m.flag4

/-- The fields of the pattern `0iiiig10` with id `i` and long flag `g` (R105). -/
def builtFields (i : BitVec 4) (g : Bool) : MetaFields where
  flag1 := false
  packetId := i
  longFlag := g
  expectResponse := true
  flag4 := false

/-- The six command bytes the spec names (R108). -/
def knownCommands : List Byte := [0xC6, 0xC7, 0x60, 0x61, 0x62, 0xFF]

/-! ## Serializer (R151, `42_encode.md`) -/

/-- The low byte of a 16-bit length, frame byte 4 (R103). -/
def lengthLow (len : BitVec 16) : Byte := len.extractLsb' 0 8

/-- The high byte of a 16-bit length, frame byte 5 (R103). -/
def lengthHigh (len : BitVec 16) : Byte := len.extractLsb' 8 8

/-- The 16-bit length assembled from frame bytes 4 and 5, little-endian (R103, R76). -/
def lengthOf (lo hi : Byte) : BitVec 16 := hi ++ lo

/-- R151: the frame of an id, a command and a payload of at most 65535 bytes. -/
def frameEncode (P : Params) (id command : Byte) (payload : List Byte) : List Byte :=
  let len := BitVec.ofNat 16 payload.length
  let metadata := metaPack (builtFields (id.extractLsb' 0 4) (decide (P.longLimit < payload.length + 6)))
  let body := [metadata, command, lengthLow len, lengthHigh len] ++ payload
  [P.mark, checksum body] ++ body

/-! ## Deserializer (R166 to R181, `43_decode.md`) -/

/-- Severity of an operation's outcome (R27). -/
inductive Severity where
  | ok
  | warn
  | error
  deriving DecidableEq, Repr

/-- `STATUS.SEV` of a severity (R27). -/
def Severity.code : Severity → BitVec 2
  | .ok => 0
  | .warn => 1
  | .error => 2

/-- The exceptions of the block (R216, `60_exceptions.md`). -/
inductive Exc where
  | malformed
  | lengthMismatch
  | checksumMismatch
  | unhandledAckRequest
  | unexpectedCommand
  | overrun
  | illegalOp
  deriving DecidableEq, Repr

/-- The code of an exception in `STATUS.ERR` (R216). -/
def Exc.code : Exc → BitVec 4
  | .malformed => 1
  | .lengthMismatch => 2
  | .checksumMismatch => 3
  | .unhandledAckRequest => 4
  | .unexpectedCommand => 5
  | .overrun => 6
  | .illegalOp => 7

/-- The configuration operands of the deserializer (R165). -/
structure DecodeConfig where
  vpol : BitVec 2
  thr : Nat
  ackFatal : Bool
  allowEn : Bool
  allow : BitVec 256
  deriving DecidableEq, Repr

/-- What `frame_decode` extracts and finds (the record R166 returns). -/
structure Decoded where
  mark : Byte
  rcs : Byte
  ccs : Byte
  metadata : Byte
  fields : MetaFields
  command : Byte
  rlen : BitVec 16
  payload : List Byte
  lenmis : Bool
  csmis : Bool
  ackreq : Bool
  unexp : Bool
  err : Option Exc
  sev : Severity
  deriving DecidableEq, Repr

/-- R177, R178: whether a mismatch on a buffer of `n` bytes is hard. -/
def hardMismatch (cfg : DecodeConfig) (n : Nat) : Bool :=
  cfg.vpol == 2 || (cfg.vpol == 1 && decide (cfg.thr < n))

/-- R181: the one exception reported, the first that applies. -/
def pickErr (hard lenmis csmis ackreq ackFatal unexp : Bool) : Option Exc :=
  if lenmis && hard then some .lengthMismatch
  else if csmis && hard then some .checksumMismatch
  else if ackreq && ackFatal then some .unhandledAckRequest
  else if unexp then some .unexpectedCommand
  else none

/-- The severity of the outcome (R166, R218). -/
def pickSev (err : Option Exc) (lenmis csmis ackreq : Bool) : Severity :=
  match err with
  | some _ => .error
  | none => if lenmis || csmis || ackreq then .warn else .ok

/-- R166 to R180: what the deserializer finds in a buffer whose six header bytes are `m cs md c l0 l1`. -/
def decodeParts (cfg : DecodeConfig) (m cs md c l0 l1 : Byte) (payload : List Byte) : Decoded :=
  let F := metaUnpack md
  let rlen := lengthOf l0 l1
  let ccs := checksum ([md, c, l0, l1] ++ payload)
  let lenmis := decide (rlen.toNat ≠ payload.length)
  let csmis := decide (ccs ≠ cs)
  let unexp := cfg.allowEn && !cfg.allow.getLsbD c.toNat
  let err := pickErr (hardMismatch cfg (payload.length + 6)) lenmis csmis F.expectResponse cfg.ackFatal unexp
  { mark := m, rcs := cs, ccs, metadata := md, fields := F, command := c, rlen, payload,
    lenmis, csmis, ackreq := F.expectResponse, unexp, err,
    sev := pickSev err lenmis csmis F.expectResponse }

/-- R166: `none` is `Malformed`. -/
def frameDecode (P : Params) (bytes : List Byte) (cfg : DecodeConfig) : Option Decoded :=
  if bytes.length ≤ P.malformedMax then none
  else
    match bytes with
    | m :: cs :: md :: c :: l0 :: l1 :: payload => some (decodeParts cfg m cs md c l0 l1 payload)
    | _ => none

end Sys2Proof.Machine
end

