-- ==== Sys2Proof/Machine/State.lean ====
section
/-! DEFINITION. The state of the block (R21, `10_state.md`), its value after reset (R48), and the reasons
a step can stop. -/

namespace Sys2Proof.Machine

/-- A byte buffer (R22, R23): the indices that hold a value, with their bytes, in rising order. An index
that is not listed holds no value. -/
abbrev Memory := List Host.Cell

/-- The one form a buffer has: indices strictly rising. (No entry can equal what an unlisted index reads
as, which is no value.) -/
def Memory.wf (m : Memory) : Bool := decide ((m.map Prod.fst).Pairwise (· < ·))

/-- The complete state of R21, then the model's own two fields: the accesses the host has issued and the
block has not yet performed (log entry 1), and the values the host's reads have returned, oldest first
(log entry 2). -/
structure State where
  /-- `IBUF` (R22). -/
  ibuf : Memory
  /-- `ILEN` (R22, R36). -/
  ilen : BitVec 17
  /-- `IOVF` (R22). -/
  iovf : Bool
  /-- `OBUF` (R23). -/
  obuf : Memory
  /-- `OLEN` (R23, R37). -/
  olen : BitVec 17
  /-- `ORP` (R23, R38). -/
  orp : BitVec 17
  /-- `ST`, the stored part of `STATUS` (R27). -/
  st : BitVec 25
  /-- `CFG` (R28): `VPOL` in bits 1:0, `ACK_FATAL` bit 2, `ALLOW_EN` bit 3. -/
  cfg : BitVec 4
  /-- `THR` (R29). -/
  thr : BitVec 17
  /-- `ARG` (R30): `ID` in bits 7:0, `COMMAND` in bits 15:8. -/
  arg : BitVec 16
  /-- `META` (R31). -/
  metaR : Byte
  /-- `MFIELDS` (R32). -/
  mfields : MetaFields
  /-- `CSR` (R33). -/
  csr : Byte
  /-- `HDR` (R39). -/
  hdr : Word
  /-- `RLEN` (R40). -/
  rlen : BitVec 16
  /-- `ALLOW0` to `ALLOW7` as one bitmap (R41). -/
  allow : BitVec 256
  /-- The MODEL's own: accesses issued and not yet performed. -/
  pending : List Access
  /-- The MODEL's own: the values returned by the host's reads. -/
  readData : List Word
  deriving DecidableEq, Repr

/-- The block after reset (R48, R250). -/
def State.reset : State where
  ibuf := []
  ilen := 0
  iovf := false
  obuf := []
  olen := 0
  orp := 0
  st := 0
  cfg := 5
  thr := 20
  arg := 0
  metaR := 0
  mfields := { flag1 := false, packetId := 0, longFlag := false, expectResponse := false, flag4 := false }
  csr := 0
  hdr := 0
  rlen := 0
  allow := 0
  pending := []
  readData := []

/-- Why a step stops with a fault. The exceptions of R216 are no faults: they are written to `STATUS`. -/
inductive Fault where
  /-- Raised by `CSUM`, `ENC`, `DEC` and `DOUT_READ` where a buffer index they read holds no value (R22,
  R23: "no rule reads it"). No state reached from reset has one. Safe. -/
  | unwrittenByte
  deriving DecidableEq, Repr

/-- Why a step is refused. -/
inductive Refusal where
  /-- An instruction that has no meaning yet; raised by no arm of `exec`. Safe. -/
  | notModelled (mnemonic : String)
  deriving DecidableEq, Repr

/-- The outcome of one step of this machine. -/
abbrev Result := Host.Outcome State Fault Refusal

end Sys2Proof.Machine
end

