-- ==== Sys2Proof/Machine/Flags.lean ====
section
/-! DEFINITION. `STATUS` (R27): how its fields are placed, what the host reads, and the three output
lines that are functions of it (R43). -/

namespace Sys2Proof.Machine

/-- The fields of `STATUS` that an operation writes. R27: a field the operation's rule does not set is
written 0, so every default is 0. -/
structure StatusFields where
  lastop : BitVec 4
  sev : Severity := .ok
  err : Option Exc := none
  malformed : Bool := false
  lenmis : Bool := false
  csmis : Bool := false
  ackreq : Bool := false
  unexp : Bool := false
  overrun : Bool := false
  illop : Bool := false
  deriving DecidableEq, Repr

/-- `STATUS.ERR` (R216): 0 when no exception is reported. -/
def errCode (e : Option Exc) : BitVec 4 :=
  match e with
  | some x => x.code
  | none => 0

/-- The stored bits 24 to 0 of `STATUS` (R27): bits 24 and 23 zero, the seven flags in bits 22 to 16,
`ERR` in 11:8, `SEV` in 5:4, `LASTOP` in 3:0. -/
def packStatus (f : StatusFields) : BitVec 25 :=
  0#2 ++ BitVec.ofBool f.illop ++ BitVec.ofBool f.overrun ++ BitVec.ofBool f.unexp
    ++ BitVec.ofBool f.ackreq ++ BitVec.ofBool f.csmis ++ BitVec.ofBool f.lenmis
    ++ BitVec.ofBool f.malformed ++ 0#4 ++ errCode f.err ++ 0#2 ++ f.sev.code ++ f.lastop

/-- The flag of an exception that is raised without a result or by an illegal code (R219, R227); the
other four exceptions leave their flags to `DEC` (R175). -/
def raisedStatus (op : BitVec 4) (x : Exc) : StatusFields where
  lastop := op
  sev := .error
  err := some x
  malformed := decide (x = .malformed)
  overrun := decide (x = .overrun)
  illop := decide (x = .illegalOp)

/-- `STATUS.LASTOP` (R27). -/
def lastopOf (st : BitVec 25) : BitVec 4 := st.extractLsb' 0 4

/-- `STATUS.SEV` (R27). -/
def sevOf (st : BitVec 25) : BitVec 2 := st.extractLsb' 4 2

/-- `STATUS.ERR` (R27). -/
def errOf (st : BitVec 25) : BitVec 4 := st.extractLsb' 8 4

/-- What `RegRead(1)` returns (R27): the stored bits 23 to 0, with the live `IOVF` in bit 24. -/
def statusView (s : State) : Word :=
  0#7 ++ BitVec.ofBool s.iovf ++ s.st.extractLsb' 0 24

/-- The output `err_o` (R43). -/
def errO (s : State) : Bool := sevOf s.st == 2

/-- The output `warn_o` (R43). -/
def warnO (s : State) : Bool := sevOf s.st == 1

/-- The output `ackreq_o` (R43). -/
def ackreqO (s : State) : Bool := s.st.getLsbD 19

end Sys2Proof.Machine
end

