-- ==== Sys2Proof/Machine/Ops.lean ====
section
/-! DEFINITION. The named operations over the buffers and the registers, and the raising of an exception
(R219). There is no return from one: it is the next operation (R231). -/

namespace Sys2Proof.Machine

open Sys2Proof.Config (Params)

/-! ## Bytes of a buffer -/

/-- The byte at index `a`, `MemRead(m, a, 1)` of R14; `none` where the index holds no value. -/
def readByte : Memory → Nat → Option Byte
  | [], _ => none
  | (k, b) :: m, a => if k = a then some b else readByte m a

/-- `MemWrite(m, a, 1, v)` of R14, keeping the indices strictly rising. -/
def writeByte : Memory → Nat → Byte → Memory
  | [], a, v => [(a, v)]
  | (k, b) :: m, a, v =>
    if a < k then (a, v) :: (k, b) :: m
    else if a = k then (a, v) :: m
    else (k, b) :: writeByte m a v

/-- The `n` bytes from index `a` on; `none` where one of them holds no value. -/
def readBytes (m : Memory) : Nat → Nat → Option (List Byte)
  | _, 0 => some []
  | a, n + 1 =>
    match readByte m a, readBytes m (a + 1) n with
    | some b, some bs => some (b :: bs)
    | _, _ => none

/-- A byte string placed from index `a` on. -/
def cellsFrom : Nat → List Byte → Memory
  | _, [] => []
  | a, b :: bs => (a, b) :: cellsFrom (a + 1) bs

/-- A byte string placed from index 0 on. -/
def ofBytes (bs : List Byte) : Memory := cellsFrom 0 bs

/-! ## Named updates of the state -/

/-- `STATUS <- f`, as a whole (R27). -/
def State.setStatus (s : State) (f : StatusFields) : State := { s with st := packStatus f }

/-- `CSR <- v` (R33). -/
def State.setCsr (s : State) (v : Byte) : State := { s with csr := v }

/-- `META <- v` (R31). -/
def State.setMeta (s : State) (v : Byte) : State := { s with metaR := v }

/-- `MFIELDS <- v` (R32). -/
def State.setMfields (s : State) (v : MetaFields) : State := { s with mfields := v }

/-- `CFG <- v` (R28). -/
def State.setCfg (s : State) (v : BitVec 4) : State := { s with cfg := v }

/-- `THR <- v` (R29). -/
def State.setThr (s : State) (v : BitVec 17) : State := { s with thr := v }

/-- `ARG <- v` (R30). -/
def State.setArg (s : State) (v : BitVec 16) : State := { s with arg := v }

/-- `ALLOW <- v` (R41). -/
def State.setAllow (s : State) (v : BitVec 256) : State := { s with allow := v }

/-- The result registers that `ENC` and `DEC` write together (R152, R175). -/
def State.latch (s : State) (hdr : Word) (rlen : BitVec 16) (csr metadata : Byte) (F : MetaFields) :
    State :=
  { s with hdr := hdr, rlen := rlen, csr := csr, metaR := metadata, mfields := F }

/-- `consume IBUF` (R14, R22). The bytes are erased, which U18 allows (log entry 4). -/
def State.consumeIbuf (s : State) : State := { s with ibuf := [], ilen := 0, iovf := false }

/-- `OLEN <- 0; ORP <- 0` (R219), the bytes erased likewise. -/
def State.emptyObuf (s : State) : State := { s with obuf := [], olen := 0, orp := 0 }

/-- `OBUF <- bs` (R14): the length, the bytes, and the read position 0. -/
def State.storeObuf (s : State) (bs : List Byte) : State :=
  { s with obuf := ofBytes bs, olen := BitVec.ofNat 17 bs.length, orp := 0 }

/-- The successful push of R34: the byte at index `ILEN`, then `ILEN + 1`. -/
def State.appendByte (s : State) (b : Byte) : State :=
  { s with ibuf := writeByte s.ibuf s.ilen.toNat b, ilen := s.ilen + 1 }

/-- `IOVF <- 1` (R34). -/
def State.setIovf (s : State) : State := { s with iovf := true }

/-- `ORP <- ORP + 1` (R35). -/
def State.advanceOrp (s : State) : State := { s with orp := s.orp + 1 }

/-- A read returns `v` to the host (R24; log entry 2). -/
def State.returnValue (s : State) (v : Word) : State := { s with readData := s.readData ++ [v] }

/-- The accesses still to be performed (log entry 1). -/
def State.setPending (s : State) (q : List Access) : State := { s with pending := q }

/-! ## Streaming (R34, R35) -/

/-- `RegWrite(8, v)` with `v[7:0] = b` (R34). -/
def pushByte (P : Params) (b : Byte) (s : State) : State :=
  if s.ilen.toNat < P.bufCap then s.appendByte b else s.setIovf

/-- `PUSH` (R110): one `DIN` write per byte, in order. -/
def pushBytes (P : Params) (bs : List Byte) (s : State) : State :=
  bs.foldl (fun t b => pushByte P b t) s

/-- `RegRead(9)` (R35). -/
def popByte (s : State) : Result :=
  if s.orp.toNat < s.olen.toNat then
    match readByte s.obuf s.orp.toNat with
    | some b => .next (s.advanceOrp.returnValue (b.setWidth 32))
    | none => .fault .unwrittenByte
  else .next (s.returnValue 0x80000000)

/-! ## Exceptions and reset -/

/-- `raise X(op)` for an exception without a result (R219): `STATUS`, `OBUF` emptied, `IBUF` consumed,
nothing else. -/
def raiseExc (op : BitVec 4) (x : Exc) (s : State) : State :=
  (s.setStatus (raisedStatus op x)).emptyObuf.consumeIbuf

/-- Reset (R48, R250): every piece of the block's state. The accesses and the read values are the
host's, outside the block, and stay. -/
def resetBlock (s : State) : State :=
  { State.reset with pending := s.pending, readData := s.readData }

/-- `IBUF[0..ILEN]` (R14), the operand of a buffer operation. -/
def operand (s : State) : Option (List Byte) := readBytes s.ibuf 0 s.ilen.toNat

/-- Run a buffer operation on its operand `IBUF[0..ILEN]`. -/
def withOperand (s : State) (k : List Byte → State) : Result :=
  match operand s with
  | some bs => .next (k bs)
  | none => .fault .unwrittenByte

end Sys2Proof.Machine
end

