-- ==== Sys2Proof/Machine/Operands.lean ====
section
/-! DEFINITION. How register values are laid out and assembled into operands: what a host reads, the legal
part of what it writes, and the operands of `ENC` and `DEC` (R24 to R42, R105, R165). -/

namespace Sys2Proof.Machine

/-- `ARG.ID` (R30). -/
def argId (s : State) : Byte := s.arg.extractLsb' 0 8

/-- `ARG.COMMAND` (R30). -/
def argCommand (s : State) : Byte := s.arg.extractLsb' 8 8

/-- The configuration operands of `DEC` (R165, R28, R29, R41). -/
def decodeConfig (s : State) : DecodeConfig where
  vpol := s.cfg.extractLsb' 0 2
  thr := s.thr.toNat
  ackFatal := s.cfg.getLsbD 2
  allowEn := s.cfg.getLsbD 3
  allow := s.allow

/-- `MFIELDS` as the host reads it (R32): `FLAG4` bit 11, `FLAG1` bit 10, `EXPECT_RESPONSE` bit 9,
`LONG_FLAG` bit 8, `PACKET_ID` bits 3:0. -/
def mfieldsView (F : MetaFields) : Word :=
  0#20 ++ BitVec.ofBool F.flag4 ++ BitVec.ofBool F.flag1 ++ BitVec.ofBool F.expectResponse
    ++ BitVec.ofBool F.longFlag ++ 0#4 ++ F.packetId

/-- What a write of `v` to `MFIELDS` stores (R32). -/
def mfieldsOf (v : Word) : MetaFields where
  flag1 := v.getLsbD 10
  packetId := v.extractLsb' 0 4
  longFlag := v.getLsbD 8
  expectResponse := v.getLsbD 9
  flag4 := v.getLsbD 11

/-- What a write of `v` to `CFG` stores (R28): bits 3:0, with `VPOL = 3` stored as 2. -/
def cfgOf (v : Word) : BitVec 4 :=
  v.extractLsb' 2 2 ++ (if v.extractLsb' 0 2 = 3 then 2#2 else v.extractLsb' 0 2)

/-- `ALLOWk` (R41): bits `32 * k + 31` to `32 * k` of the bitmap. -/
def allowWord (allow : BitVec 256) (k : Nat) : Word := allow.extractLsb' (32 * k) 32

/-- The bitmap after `ALLOWk <- v` (R41). -/
def setAllowWord (allow : BitVec 256) (k : Nat) (v : Word) : BitVec 256 :=
  (allow &&& ~~~((BitVec.allOnes 32).setWidth 256 <<< (32 * k))) ||| (v.setWidth 256 <<< (32 * k))

/-- `HDR` from frame bytes 0 to 3 (R39): byte 0 in the low bits. -/
def headerWord (b0 b1 b2 b3 : Byte) : Word := b3 ++ b2 ++ b1 ++ b0

/-- `x[n]` of R14, the value a host reads from a register whose read has no side effect (R24 to R42):
write-only and reserved numbers read 0. `DOUT` (number 9) is read by `popByte` alone. -/
def regView (n : RegNum) (s : State) : Word :=
  match n.toNat with
  | 1 => statusView s
  | 2 => s.cfg.setWidth 32
  | 3 => s.thr.setWidth 32
  | 4 => s.arg.setWidth 32
  | 5 => s.metaR.setWidth 32
  | 6 => mfieldsView s.mfields
  | 7 => s.csr.setWidth 32
  | 10 => s.ilen.setWidth 32
  | 11 => s.olen.setWidth 32
  | 12 => s.orp.setWidth 32
  | 13 => s.hdr
  | 14 => s.rlen.setWidth 32
  | k => if 16 ≤ k ∧ k ≤ 23 then allowWord s.allow (k - 16) else 0

/-- A write of `v` to a register that stores it (R28 to R32, R41): the legal part is stored. A write to a
read-only or reserved number is ignored (R24, R42). `CMD` and `DIN` are instructions of the table. -/
def regStore (n : RegNum) (v : Word) (s : State) : State :=
  match n.toNat with
  | 2 => s.setCfg (cfgOf v)
  | 3 => s.setThr (v.extractLsb' 0 17)
  | 4 => s.setArg (v.extractLsb' 0 16)
  | 5 => s.setMeta (v.extractLsb' 0 8)
  | 6 => s.setMfields (mfieldsOf v)
  | k => if 16 ≤ k ∧ k ≤ 23 then s.setAllow (setAllowWord s.allow (k - 16) v) else s

end Sys2Proof.Machine
end

