-- ==== Sys2Proof/Machine/Checksum.lean ====
section
/-! DEFINITION. `CSUM` (R134, `40_checksum.md`). -/

namespace Sys2Proof.Machine

/-- `CSUM` (R134): `Overrun` when `IOVF = 1`, else `CSR` gets the checksum of `IBUF[0..ILEN]`. -/
def execCsum (s : State) : Result :=
  if s.iovf then .next (raiseExc 2 .overrun s)
  else withOperand s fun bs => ((s.setCsr (checksum bs)).setStatus { lastop := 2 }).consumeIbuf

end Sys2Proof.Machine
end

