-- ==== Sys2Proof/Machine/Control.lean ====
section
/-! DEFINITION. `NOP`, `CLR`, `SRST` and the values of `CMD` that name no operation
(`44_control_ops.md`). -/

namespace Sys2Proof.Machine

/-- `NOP` (R200): no state change, `STATUS` included. -/
def execNop (s : State) : Result := .next s

/-- `CLR` (R201): both buffers empty, `STATUS` cleared. -/
def execClr (s : State) : Result := .next (s.consumeIbuf.emptyObuf.setStatus { lastop := 1 })

/-- `SRST` (R202): every piece of state at its reset value. -/
def execSrst (s : State) : Result := .next (resetBlock s)

/-- A `CMD` value that names no operation (R203, R227): `STATUS` is written and nothing else. -/
def execIllegalCmd (v : Word) (s : State) : Result :=
  .next (s.setStatus (raisedStatus (v.extractLsb' 0 4) .illegalOp))

end Sys2Proof.Machine
end

