-- ==== Sys2Proof/Machine/Deserializer.lean ====
section
/-! DEFINITION. `DEC` (R175, `43_decode.md`). -/

namespace Sys2Proof.Machine

open Sys2Proof.Config (Params)

/-- `STATUS` of a `DEC` that extracted fields (R175, R181). -/
def decodedStatus (r : Decoded) : StatusFields where
  lastop := 4
  sev := r.sev
  err := r.err
  lenmis := r.lenmis
  csmis := r.csmis
  ackreq := r.ackreq
  unexp := r.unexp

/-- What `DEC` writes when it extracts the fields `r` (R175, R182). -/
def decWrites (s : State) (r : Decoded) : State :=
  (((s.storeObuf r.payload).latch (headerWord r.mark r.rcs r.metadata r.command) r.rlen r.ccs r.metadata
    r.fields).setStatus (decodedStatus r)).consumeIbuf

/-- `DEC` on the operand `bs` (R175): `Malformed`, or the fields and their checks. -/
def decodeOperand (P : Params) (s : State) (bs : List Byte) : State :=
  match frameDecode P bs (decodeConfig s) with
  | none => raiseExc 4 .malformed s
  | some r => decWrites s r

/-- `DEC` of an instance with the parameters `P` (R175): `Overrun` when `IOVF = 1`, else the buffer is
parsed. -/
def decOp (P : Params) (s : State) : Result :=
  if s.iovf then .next (raiseExc 4 .overrun s) else withOperand s (decodeOperand P s)

/-- `DEC` (R175) with the spec's parameters. -/
def execDec (s : State) : Result := decOp Config.params s

end Sys2Proof.Machine
end

