-- ==== Sys2Proof/Machine/Metadata.lean ====
section
/-! DEFINITION. `MPACK` and `MUNPK` (R143, R144, `41_metadata.md`). -/

namespace Sys2Proof.Machine

/-- `MPACK` (R143): `META` gets the byte of the fields in `MFIELDS`. -/
def execMpack (s : State) : Result :=
  .next ((s.setMeta (metaPack s.mfields)).setStatus { lastop := 5 })

/-- `MUNPK` (R144): `MFIELDS` gets the fields of the byte in `META`. -/
def execMunpk (s : State) : Result :=
  .next ((s.setMfields (metaUnpack s.metaR)).setStatus { lastop := 6 })

end Sys2Proof.Machine
end

