-- ==== Sys2Proof/Machine/Serializer.lean ====
section
/-! DEFINITION. `ENC` (R152, R155, `42_encode.md`). -/

namespace Sys2Proof.Machine

open Sys2Proof.Config (Params)

/-- What `ENC` writes when it builds the frame of payload `bs` (R152). -/
def encWrites (P : Params) (s : State) (bs : List Byte) : State :=
  let f := frameEncode P (argId s) (argCommand s) bs
  (((s.storeObuf f).latch (headerWord (f.getD 0 0) (f.getD 1 0) (f.getD 2 0) (f.getD 3 0))
    (s.ilen.extractLsb' 0 16) (f.getD 1 0) (f.getD 2 0) (metaUnpack (f.getD 2 0))).setStatus
      { lastop := 3 }).consumeIbuf

/-- `ENC` of an instance with the parameters `P` (R152): `Overrun` when `IOVF = 1` or the payload is
longer than `PAYLOAD_MAX` (R155), else the frame goes to `OBUF`. -/
def encOp (P : Params) (s : State) : Result :=
  if s.iovf || decide (P.payloadMax < s.ilen.toNat) then .next (raiseExc 3 .overrun s)
  else withOperand s (encWrites P s)

/-- `ENC` (R152) with the spec's parameters. -/
def execEnc (s : State) : Result := encOp Config.params s

end Sys2Proof.Machine
end

