-- ==== Sys2Proof/Machine/Stream.lean ====
section
/-! DEFINITION. The store and the load of the block: `DIN_WRITE` (R34) and `DOUT_READ` (R35). -/

namespace Sys2Proof.Machine

/-- `RegWrite(8, v)` (R34): the byte `v[7:0]` is pushed, `v[31:8]` ignored. -/
def execDinWrite (v : Word) (s : State) : Result :=
  .next (pushByte Config.params (v.extractLsb' 0 8) s)

/-- `RegRead(9)` (R35): the next byte of `OBUF`, or `EMPTY`. -/
def execDoutRead (s : State) : Result := popByte s

end Sys2Proof.Machine
end

