-- ==== Sys2Proof/Syntax.lean ====
section
/-! DEFINITION. `Instr`: one constructor per row of the opcode table (R114, `30_encoding.md`). -/

namespace Sys2Proof

/-- The rows of the opcode table. The first nine are values written to `CMD` (R100, R101). The frame,
metadata and command rows are the wire formats of R102 to R108. The last two are the register accesses
with side effects, R34 and R35. -/
inductive Instr where
  | nop
  | clr
  | csum
  | enc
  | dec
  | mpack
  | munpk
  | srst
  /-- Any other value `v` written to `CMD` (R101). -/
  | illegalCmd (v : Word)
  /-- R102: mark `k`, checksum `s`, metadata `m`, command `c`, length `len`, then the payload. -/
  | frame (k s : Byte) (m : MetaFields) (c : Byte) (len : BitVec 16) (payload : List Byte)
  /-- R102 with the metadata pattern `0iiiig10` of R105. -/
  | frameBuiltByEnc (k s : Byte) (i : BitVec 4) (g : Bool) (c : Byte) (len : BitVec 16)
      (payload : List Byte)
  /-- R104: a metadata byte. -/
  | metadata (m : MetaFields)
  /-- R105: a metadata byte of the pattern `0iiiig10`. -/
  | metadataBuiltByEnc (i : BitVec 4) (g : Bool)
  /-- R108: command byte `0xC6`. -/
  | badgeInfoRequest
  /-- R108: command byte `0xC7`. -/
  | badgeInfoResponse
  /-- R108: command byte `0x60`. -/
  | bindRequest
  /-- R108: command byte `0x61`. -/
  | bindResponse
  /-- R108: command byte `0x62`. -/
  | unbindRequest
  /-- R108: command byte `0xFF`. -/
  | unbindResponse
  /-- R108: one of the 250 other command bytes. -/
  | unknownCommand (c : Byte)
  /-- R34: `RegWrite(8, v)`. -/
  | dinWrite (v : Word)
  /-- R35: `RegRead(9)`. -/
  | doutRead
  deriving DecidableEq, Repr

end Sys2Proof
end

