-- ==== Sys2Proof/WellFormed.lean ====
section
/-! DEFINITION. Which terms of `Instr` are instructions of the table: a row whose bits another, narrower
row claims is not written as the wider one, and a frame has at most 65535 payload bytes (R102). -/

namespace Sys2Proof

open Sys2Proof.Machine (builtMeta knownCommands)

/-- Well-formedness, one check per row that needs one: `ILLEGAL_CMD` takes the values that name no
operation (R101); a frame's payload has at most 65535 bytes (R102); `FRAME` and `METADATA` take the
bit patterns that the rows built by `ENC` do not; `UNKNOWN_COMMAND` takes the other 250 bytes (R108). -/
def Instr.wellFormed : Instr → Bool
  | .illegalCmd v => decide (8 ≤ v.toNat)
  | .frame _ _ m _ _ payload => !builtMeta m && decide (payload.length ≤ 65535)
  | .frameBuiltByEnc _ _ _ _ _ _ payload => decide (payload.length ≤ 65535)
  | .metadata m => !builtMeta m
  | .unknownCommand c => !knownCommands.contains c
  | .nop | .clr | .csum | .enc | .dec | .mpack | .munpk | .srst => true
  | .metadataBuiltByEnc _ _ => true
  | .badgeInfoRequest | .badgeInfoResponse | .bindRequest | .bindResponse => true
  | .unbindRequest | .unbindResponse => true
  | .dinWrite _ | .doutRead => true

end Sys2Proof
end

