-- ==== Sys2Proof/Decode.lean ====
section
/-! DEFINITION. Decoding of a host access to a row of the opcode table, total, rejecting by name; the
encoder; and the reading of a table word. -/

namespace Sys2Proof

open Sys2Proof.Machine

/-- Why an access is no row of the opcode table. -/
inductive Reject where
  /-- A register access that the table has no row for: `step` performs it as R24 to R42 say. -/
  | plainRegister
  /-- Reset is not an access (R252). -/
  | notAnAccess
  /-- A frame has a 6-byte header (R102). -/
  | frameTooShort
  /-- A frame has at most 65535 payload bytes (R102). -/
  | frameTooLong
  /-- A metadata byte or a command byte is one byte (R104, R108). -/
  | notOneByte
  deriving DecidableEq, Repr

/-- The value written to `CMD` (R100, R101). -/
def decodeCmd (v : Word) : Instr :=
  match v.toNat with
  | 0 => .nop
  | 1 => .clr
  | 2 => .csum
  | 3 => .enc
  | 4 => .dec
  | 5 => .mpack
  | 6 => .munpk
  | 7 => .srst
  | _ => .illegalCmd v

/-- A metadata byte (R104), or one of the narrower pattern (R105). -/
def decodeMetadata (b : Byte) : Instr :=
  let m := metaUnpack b
  if builtMeta m then .metadataBuiltByEnc m.packetId m.longFlag else .metadata m

/-- A command byte (R108). -/
def decodeCommand (c : Byte) : Instr :=
  match c.toNat with
  | 0xC6 => .badgeInfoRequest
  | 0xC7 => .badgeInfoResponse
  | 0x60 => .bindRequest
  | 0x61 => .bindResponse
  | 0x62 => .unbindRequest
  | 0xFF => .unbindResponse
  | _ => .unknownCommand c

/-- A frame: the 48 header bits in wire order, then the payload (R102). -/
def decodeFrame (bs : List Byte) : Except Reject Instr :=
  match bs with
  | k :: s :: m :: c :: n :: h :: payload =>
    if 65535 < payload.length then .error .frameTooLong
    else
      let F := metaUnpack m
      .ok (if builtMeta F then .frameBuiltByEnc k s F.packetId F.longFlag c (lengthOf n h) payload
        else .frame k s F c (lengthOf n h) payload)
  | _ => .error .frameTooShort

/-- The row of the opcode table a host access is (R114: the rows are told apart by their format). -/
def decode : Access → Except Reject Instr
  | .write n v =>
    match n.toNat with
    | 0 => .ok (decodeCmd v)
    | 8 => .ok (.dinWrite v)
    | _ => .error .plainRegister
  | .read n => if n = 9 then .ok .doutRead else .error .plainRegister
  | .push .frame bs => decodeFrame bs
  | .push .metadata bs =>
    match bs with
    | [b] => .ok (decodeMetadata b)
    | _ => .error .notOneByte
  | .push .command bs =>
    match bs with
    | [c] => .ok (decodeCommand c)
    | _ => .error .notOneByte
  | .rst => .error .notAnAccess

/-- The bytes of a frame whose header fields are given, in wire order (R102). -/
def frameBytes (k s : Byte) (m : MetaFields) (c : Byte) (len : BitVec 16) (payload : List Byte) :
    List Byte :=
  [k, s, metaPack m, c, lengthLow len, lengthHigh len] ++ payload

/-- The access that is a given instruction, from the same tables (R100, R102, R104, R105, R108, R34,
R35). -/
def encode : Instr → Access
  | .nop => .write 0 0
  | .clr => .write 0 1
  | .csum => .write 0 2
  | .enc => .write 0 3
  | .dec => .write 0 4
  | .mpack => .write 0 5
  | .munpk => .write 0 6
  | .srst => .write 0 7
  | .illegalCmd v => .write 0 v
  | .frame k s m c len payload => .push .frame (frameBytes k s m c len payload)
  | .frameBuiltByEnc k s i g c len payload =>
    .push .frame (frameBytes k s (builtFields i g) c len payload)
  | .metadata m => .push .metadata [metaPack m]
  | .metadataBuiltByEnc i g => .push .metadata [metaPack (builtFields i g)]
  | .badgeInfoRequest => .push .command [0xC6]
  | .badgeInfoResponse => .push .command [0xC7]
  | .bindRequest => .push .command [0x60]
  | .bindResponse => .push .command [0x61]
  | .unbindRequest => .push .command [0x62]
  | .unbindResponse => .push .command [0xFF]
  | .unknownCommand c => .push .command [c]
  | .dinWrite v => .write 8 v
  | .doutRead => .read 9

/-- `k` bytes of a number, least significant byte first (R76). -/
def bytesLE : Nat → Nat → List Byte
  | 0, _ => []
  | k + 1, w => BitVec.ofNat 8 w :: bytesLE k (w / 256)

/-- A bare byte of the table, with nothing that tells its format (log entry 7): one of the six command
bytes, else the register number of `DIN` or `DOUT` in bits 4:0, else a metadata byte. -/
def tableByte (b : Byte) : Access :=
  if knownCommands.contains b then .push .command [b]
  else if b.extractLsb' 0 5 = 8 then .write 8 0
  else if b.extractLsb' 0 5 = 9 then .read 9
  else .push .metadata [b]

/-- The access an instruction of the table stands for, from its `nbits` bits `w` (log entry 7): a `CMD`
value has 32 bits, a frame header 48, every other row one byte. -/
def tableAccess (nbits w : Nat) : Option Access :=
  if nbits = 8 then some (tableByte (BitVec.ofNat 8 w))
  else if nbits = 32 then some (.write 0 (BitVec.ofNat 32 w))
  else if 48 ≤ nbits then some (.push .frame (bytesLE (nbits / 8) w))
  else none

/-- The instruction the decoder reads from a word of the opcode table. -/
def decodeTableWord (nbits w : Nat) : Option Instr :=
  match tableAccess nbits w with
  | some a =>
    match decode a with
    | .ok i => some i
    | .error _ => none
  | none => none

end Sys2Proof
end

