-- ==== Sys2Proof/Machine/Wire.lean ====
section
/-! DEFINITION. The rows of the opcode table that are wire formats: frames (R102), metadata bytes (R104,
R105) and command bytes (R108). The block carries each as data: it enters through `DIN`, byte by byte in
wire order (R71, R75, R88, R110 `PUSH`), and is interpreted by `DEC` alone (log entry 3). -/

namespace Sys2Proof.Machine

/-- The bytes of a wire item enter `IBUF` in order. -/
def carry (bs : List Byte) (s : State) : Result := .next (pushBytes Config.params bs s)

/-- `FRAME` (R102). -/
def execFrame (k cs : Byte) (m : MetaFields) (c : Byte) (len : BitVec 16) (payload : List Byte)
    (s : State) : Result :=
  carry (frameBytes k cs m c len payload) s

/-- `FRAME_BUILT_BY_ENC` (R102, R105). -/
def execFrameBuiltByEnc (k cs : Byte) (i : BitVec 4) (g : Bool) (c : Byte) (len : BitVec 16)
    (payload : List Byte) (s : State) : Result :=
  carry (frameBytes k cs (builtFields i g) c len payload) s

/-- `METADATA` (R104). -/
def execMetadata (m : MetaFields) (s : State) : Result := carry [metaPack m] s

/-- `METADATA_BUILT_BY_ENC` (R105). -/
def execMetadataBuiltByEnc (i : BitVec 4) (g : Bool) (s : State) : Result :=
  carry [metaPack (builtFields i g)] s

/-- `BadgeInfoRequest` (R108). -/
def execBadgeInfoRequest (s : State) : Result := carry [0xC6] s

/-- `BadgeInfoResponse` (R108). -/
def execBadgeInfoResponse (s : State) : Result := carry [0xC7] s

/-- `BindRequest` (R108). -/
def execBindRequest (s : State) : Result := carry [0x60] s

/-- `BindResponse` (R108). -/
def execBindResponse (s : State) : Result := carry [0x61] s

/-- `UnbindRequest` (R108). -/
def execUnbindRequest (s : State) : Result := carry [0x62] s

/-- `UnbindResponse` (R108). -/
def execUnbindResponse (s : State) : Result := carry [0xFF] s

/-- `UNKNOWN_COMMAND` (R108): legal data like the known ones. -/
def execUnknownCommand (c : Byte) (s : State) : Result := carry [c] s

end Sys2Proof.Machine
end

