-- ==== Sys2Proof/Machine/Dispatch.lean ====
section
/-! DEFINITION. `exec`: the meaning of each row of the opcode table. -/

namespace Sys2Proof.Machine

def exec (i : Instr) (s : State) : Host.Outcome State Fault Refusal :=
  match i with
  | .nop => Sys2Proof.Machine.execNop s
  | .clr => Sys2Proof.Machine.execClr s
  | .csum => Sys2Proof.Machine.execCsum s
  | .enc => Sys2Proof.Machine.execEnc s
  | .dec => Sys2Proof.Machine.execDec s
  | .mpack => Sys2Proof.Machine.execMpack s
  | .munpk => Sys2Proof.Machine.execMunpk s
  | .srst => Sys2Proof.Machine.execSrst s
  | .illegalCmd v => Sys2Proof.Machine.execIllegalCmd v s
  | .frame k cs m c len payload => Sys2Proof.Machine.execFrame k cs m c len payload s
  | .frameBuiltByEnc k cs n g c len payload => Sys2Proof.Machine.execFrameBuiltByEnc k cs n g c len payload s
  | .metadata m => Sys2Proof.Machine.execMetadata m s
  | .metadataBuiltByEnc n g => Sys2Proof.Machine.execMetadataBuiltByEnc n g s
  | .badgeInfoRequest => Sys2Proof.Machine.execBadgeInfoRequest s
  | .badgeInfoResponse => Sys2Proof.Machine.execBadgeInfoResponse s
  | .bindRequest => Sys2Proof.Machine.execBindRequest s
  | .bindResponse => Sys2Proof.Machine.execBindResponse s
  | .unbindRequest => Sys2Proof.Machine.execUnbindRequest s
  | .unbindResponse => Sys2Proof.Machine.execUnbindResponse s
  | .unknownCommand c => Sys2Proof.Machine.execUnknownCommand c s
  | .dinWrite v => Sys2Proof.Machine.execDinWrite v s
  | .doutRead => Sys2Proof.Machine.execDoutRead s

end Sys2Proof.Machine
end

