-- ==== Sys2Proof/Machine/Registers.lean ====
section
/-! DEFINITION. The host accesses that are no row of the opcode table: plain register reads and writes
(R24 to R42), reset (R250), and a push of a byte string that is in no wire format. -/

namespace Sys2Proof.Machine

/-- The effect of an access that `decode` rejects. -/
def hostAccess (a : Access) (s : State) : Result :=
  match a with
  | .read n => .next (s.returnValue (regView n s))
  | .write n v => .next (regStore n v s)
  | .push _ bs => .next (pushBytes Config.params bs s)
  | .rst => .next (resetBlock s)

end Sys2Proof.Machine
end

