-- ==== Sys2Proof/Machine/Step.lean ====
section
/-! DEFINITION. One step: the block performs the first access the host has issued (R10, R82). -/

namespace Sys2Proof.Machine

/-- The first pending access is taken off the stream; the row of the opcode table it is, is executed; an
access that is no row is performed as a plain register access. With nothing pending the block is
quiescent (R267). -/
def step (s : State) : Host.Outcome State Fault Refusal :=
  match s.pending with
  | [] => .next s
  | a :: rest =>
    match Sys2Proof.decode a with
    | .ok i => exec i (s.setPending rest)
    | .error _ => hostAccess a (s.setPending rest)

/-- `s` with the access of a table word as the next one to be performed. -/
def State.withFetchWord (s : State) (nbits w : Nat) : State :=
  match Sys2Proof.tableAccess nbits w with
  | some a => s.setPending (a :: s.pending)
  | none => s

end Sys2Proof.Machine
end

