-- ==== Sys2Proof/Safety.lean ====
section
/-! DEFINITION. What holds of every state the machine reaches from reset, in the terms claims use. -/

namespace Sys2Proof.Machine

/-- The buffer `m` holds a value at the indices `0` to `n - 1` and at no other (R22, R23). -/
abbrev HoldsExactly (m : Memory) (n : Nat) : Prop := m.map Prod.fst = List.range n

/-- The buffers and their counters (R22, R23, R25): `ILEN` and `OLEN` count the bytes held and stay
within `BUF_CAP`, `ORP` stays within `OLEN`, and `IOVF` is set only on a full `IBUF`. -/
abbrev BuffersOk (s : State) : Prop :=
  HoldsExactly s.ibuf s.ilen.toNat ∧ HoldsExactly s.obuf s.olen.toNat ∧
  s.ilen.toNat ≤ Config.params.bufCap ∧ s.olen.toNat ≤ Config.params.bufCap ∧
  s.orp.toNat ≤ s.olen.toNat ∧
  (s.iovf = true → s.ilen.toNat = Config.params.bufCap)

/-- The stored part of `STATUS` (R27, R216, R218): the zero bits are zero, `SEV` is never 3, `ERR` is an
exception code exactly when `SEV = ERROR`, and a warning has one of the three warning flags set. -/
abbrev StatusOk (st : BitVec 25) : Prop :=
  st.extractLsb' 6 2 = 0 ∧ st.extractLsb' 12 4 = 0 ∧ st.extractLsb' 23 2 = 0 ∧
  (sevOf st).toNat ≤ 2 ∧ (sevOf st = 2 ↔ errOf st ≠ 0) ∧ (errOf st).toNat ≤ 7 ∧
  (sevOf st = 1 → st.extractLsb' 17 3 ≠ 0)

/-- `CFG.VPOL` is a legal policy (R28: writing 3 stores 2). -/
abbrev CfgOk (cfg : BitVec 4) : Prop := cfg.extractLsb' 0 2 ≠ 3

/-- The invariant of the machine. -/
abbrev Inv (s : State) : Prop := BuffersOk s ∧ StatusOk s.st ∧ CfgOk s.cfg

end Sys2Proof.Machine
end

