-- ==== Sys2Proof/Certificates/Slice0/Obligations.lean ====
section
/-! DEFINITION. The statements about the machine. Numbers in them (addresses of bits, codes, capacities)
are written out from the spec, not taken from the model's definitions. -/

open Sys2Proof Sys2Proof.Machine

/-! ## Encodings -/

/-- Every well-formed instruction of every row is the one its encoding decodes to (R100 to R108). -/
def Obligations.DecodeEncodeRoundTrip : Prop :=
  ∀ i : Instr, i.wellFormed = true → decode (encode i) = .ok i

/-- An access that decodes to an instruction is that instruction's encoding, and the instruction is
well-formed: no two rows of the table claim one access. -/
def Obligations.EncodeDecodeRoundTrip : Prop :=
  ∀ (a : Access) (i : Instr), decode a = .ok i → i.wellFormed = true ∧ encode i = a

/-- Words written out from the tables decode to the rows they stand for (R100, R102, R104, R105, R108,
R34, R35). -/
def Obligations.WrittenWordsDecode : Prop :=
  decode (.write 0 0x00000003) = .ok .enc ∧ decode (.write 0 0x00000004) = .ok .dec ∧
  decode (.write 0 0x80000004) = .ok (.illegalCmd 0x80000004) ∧
  decode (.push .metadata [0b01100010]) = .ok (.metadataBuiltByEnc 12 false) ∧
  decode (.push .metadata [0b10000001])
    = .ok (.metadata { flag1 := true, packetId := 0, longFlag := false, expectResponse := false, flag4 := true }) ∧
  decode (.push .command [0xC7]) = .ok .badgeInfoResponse ∧
  decode (.push .frame [0x5A, 0x2A, 0x62, 0xC6, 0x01, 0x00, 0x01])
    = .ok (.frameBuiltByEnc 0x5A 0x2A 12 false 0xC6 1 [0x01]) ∧
  decode (.push .frame [0x5A, 0x29, 0x60, 0xC7, 0x2C, 0x01])
    = .ok (.frame 0x5A 0x29
        { flag1 := false, packetId := 12, longFlag := false, expectResponse := false, flag4 := false }
        0xC7 300 []) ∧
  decode (.write 8 0x000001FF) = .ok (.dinWrite 0x000001FF) ∧ decode (.read 9) = .ok .doutRead

/-- R101: a value of `CMD` names an operation only if it is one of 0 to 7. -/
def Obligations.OnlyEightCmdValuesNameOperations : Prop :=
  ∀ v : Word,
    (v.toNat < 8 → decode (.write 0 v) =
      .ok ([Instr.nop, .clr, .csum, .enc, .dec, .mpack, .munpk, .srst].getD v.toNat .nop)) ∧
    (8 ≤ v.toNat → decode (.write 0 v) = .ok (.illegalCmd v))

/-! ## The step and the register interface -/

/-- When the first pending access decodes to a well-formed instruction, the step is that instruction,
on the state with the access taken off the stream. -/
def Obligations.StepRunsDecodedInstruction : Prop :=
  ∀ (s : State) (a : Access) (rest : List Access) (i : Instr),
    s.pending = a :: rest → decode a = .ok i → i.wellFormed = true →
      step s = exec i { s with pending := rest }

/-- R267, R230: with no access issued the block does nothing. (The stream of accesses is the model's own
field, log entry 1.) -/
def Obligations.QuiescentWithoutAccess : Prop :=
  ∀ s : State, s.pending = [] → step s = .next s

/-- R24 to R42: what `RegRead(n)` returns for every register number but 9, and that the read changes
nothing else. (A returned value is appended to `readData`: log entry 2.) -/
def Obligations.RegisterReadsReturnTheRegister : Prop :=
  ∀ (s : State) (n : RegNum) (rest : List Access), s.pending = .read n :: rest → n ≠ 9 →
    step s = .next { s with
      pending := rest
      readData := s.readData ++ [BitVec.ofNat 32 (
        if n = 1 then s.st.toNat % 16777216 + 16777216 * s.iovf.toNat
        else if n = 2 then s.cfg.toNat
        else if n = 3 then s.thr.toNat
        else if n = 4 then s.arg.toNat
        else if n = 5 then s.metaR.toNat
        else if n = 6 then
          s.mfields.packetId.toNat + 256 * s.mfields.longFlag.toNat + 512 * s.mfields.expectResponse.toNat
            + 1024 * s.mfields.flag1.toNat + 2048 * s.mfields.flag4.toNat
        else if n = 7 then s.csr.toNat
        else if n = 10 then s.ilen.toNat
        else if n = 11 then s.olen.toNat
        else if n = 12 then s.orp.toNat
        else if n = 13 then s.hdr.toNat
        else if n = 14 then s.rlen.toNat
        else if 16 ≤ n.toNat ∧ n.toNat ≤ 23 then s.allow.toNat / 2 ^ (32 * (n.toNat - 16)) % 2 ^ 32
        else 0)] }

/-- R28: a write to `CFG` keeps bits 3:0, with `VPOL = 3` stored as 2. -/
def Obligations.CfgWriteStoresLegalPolicy : Prop :=
  ∀ (s : State) (v : Word) (rest : List Access), s.pending = .write 2 v :: rest →
    step s = .next { s with
      pending := rest, cfg := BitVec.ofNat 4 (4 * (v.toNat / 4 % 4) + min (v.toNat % 4) 2) }

/-- R29 to R32: what a write to `THR`, `ARG`, `META` and `MFIELDS` stores, and that it changes nothing
else. -/
def Obligations.OperandRegisterWrites : Prop :=
  ∀ (s : State) (v : Word) (rest : List Access),
    (s.pending = .write 3 v :: rest →
      step s = .next { s with pending := rest, thr := BitVec.ofNat 17 (v.toNat % 131072) }) ∧
    (s.pending = .write 4 v :: rest →
      step s = .next { s with pending := rest, arg := BitVec.ofNat 16 (v.toNat % 65536) }) ∧
    (s.pending = .write 5 v :: rest →
      step s = .next { s with pending := rest, metaR := BitVec.ofNat 8 (v.toNat % 256) }) ∧
    (s.pending = .write 6 v :: rest →
      step s = .next { s with
        pending := rest
        mfields := { flag1 := decide (v.toNat / 1024 % 2 = 1), packetId := BitVec.ofNat 4 (v.toNat % 16),
                     longFlag := decide (v.toNat / 256 % 2 = 1),
                     expectResponse := decide (v.toNat / 512 % 2 = 1),
                     flag4 := decide (v.toNat / 2048 % 2 = 1) } })

/-- R41: a write to `ALLOWk` sets bits `32 * k` to `32 * k + 31` of the bitmap and no other, and changes
nothing else. -/
def Obligations.AllowWriteSetsItsBits : Prop :=
  ∀ (s : State) (n : RegNum) (v : Word) (rest : List Access), 16 ≤ n.toNat → n.toNat ≤ 23 →
    s.pending = .write n v :: rest →
      ∃ m : BitVec 256, step s = .next { s with pending := rest, allow := m } ∧
        ∀ j, m.getLsbD j =
          if 32 * (n.toNat - 16) ≤ j ∧ j < 32 * (n.toNat - 16) + 32 then v.getLsbD (j - 32 * (n.toNat - 16))
          else s.allow.getLsbD j

/-- R24, R42: a write to a read-only register (`STATUS`, `CSR`, `DOUT`, `ILEN`, `OLEN`, `ORP`, `HDR`,
`RLEN`) or to a reserved number is ignored. -/
def Obligations.ReadOnlyAndReservedWritesIgnored : Prop :=
  ∀ (s : State) (n : RegNum) (v : Word) (rest : List Access),
    n.toNat ∈ [1, 7, 9, 10, 11, 12, 13, 14, 15, 24, 25, 26, 27, 28, 29, 30, 31] →
    s.pending = .write n v :: rest → step s = .next { s with pending := rest }

/-! ## Reset and the control operations -/

/-- R48: the value of every piece of the block's state after reset. -/
def Obligations.ResetValues : Prop :=
  State.reset.ilen = 0 ∧ State.reset.iovf = false ∧ State.reset.olen = 0 ∧ State.reset.orp = 0 ∧
  statusView State.reset = 0 ∧ State.reset.cfg = 5 ∧ State.reset.thr = 20 ∧ State.reset.arg = 0 ∧
  State.reset.metaR = 0 ∧ mfieldsView State.reset.mfields = 0 ∧ State.reset.csr = 0 ∧
  State.reset.hdr = 0 ∧ State.reset.rlen = 0 ∧ State.reset.allow = 0 ∧
  errO State.reset = false ∧ warnO State.reset = false ∧ ackreqO State.reset = false

/-- R200: `NOP` changes nothing at all, `STATUS` included; written to `CMD` as 0. -/
def Obligations.NopChangesNothing : Prop :=
  ∀ s : State, decode (.write 0 0) = .ok .nop ∧ exec .nop s = .next s

/-- R201: `CLR` empties both buffers, clears `STATUS` but for `LASTOP = 1`, and writes nothing else. -/
def Obligations.ClrEmptiesBuffersAndStatus : Prop :=
  ∀ s : State, decode (.write 0 1) = .ok .clr ∧
    exec .clr s = .next { s with
      ibuf := [], ilen := 0, iovf := false, obuf := [], olen := 0, orp := 0, st := 0x00000001 }

/-- R202, R250, R251: `SRST` and the reset input leave the same state, that of reset, whatever came
before. (The accesses and the read values are the host's and stay: log entries 1 and 2.) -/
def Obligations.SrstEqualsReset : Prop :=
  ∀ s : State,
    exec .srst s = .next { State.reset with pending := s.pending, readData := s.readData } ∧
    ∀ rest, s.pending = .rst :: rest →
      step s = .next { State.reset with pending := rest, readData := s.readData } ∧
      step s = step { s with pending := .write 0 7 :: rest }

/-- R227: writing a value that names no operation writes `STATUS = 0x00400720 + v[3:0]` and nothing
else: `IBUF` is not consumed. -/
def Obligations.IllegalCmdWritesStatusOnly : Prop :=
  ∀ (s : State) (v : Word), 8 ≤ v.toNat →
    decode (.write 0 v) = .ok (.illegalCmd v) ∧
    exec (.illegalCmd v) s = .next { s with st := BitVec.ofNat 25 (0x00400720 + v.toNat % 16) }

/-! ## Checksum -/

/-- R131: the signed wrapping sum of R130 is the unsigned sum modulo 256. -/
def Obligations.ChecksumIsUnsignedSum : Prop :=
  ∀ bs : List Byte, (checksum bs).toNat = (bs.map BitVec.toNat).sum % 256

/-- R132: the empty string, one byte, concatenation, order, zero bytes, complement, and the two boundary
sums. -/
def Obligations.ChecksumLaws : Prop :=
  checksum [] = 0 ∧ (∀ b : Byte, checksum [b] = b) ∧
  (∀ xs ys : List Byte, checksum (xs ++ ys) = checksum xs + checksum ys) ∧
  (∀ xs ys : List Byte, xs.Perm ys → checksum xs = checksum ys) ∧
  (∀ xs : List Byte, checksum (xs.filter (· ≠ 0)) = checksum xs) ∧
  (∀ xs : List Byte, checksum (xs ++ [BitVec.ofNat 8 (256 - (checksum xs).toNat)]) = 0) ∧
  checksum [0x7F, 0x01] = 0x80 ∧ checksum [0xFF, 0x01] = 0x00

/-- R134: `CSUM`, with `Overrun` and without: every register and buffer it writes, and that it writes no
other. (What `checksum` is: R130, R131 above. That the `CSUM` that raises `Overrun` empties `OBUF` is the
model's reading of R134, R216 and R219 against the tables of R44 and R23: log entry 10.) -/
def Obligations.CsumOperation : Prop :=
  ∀ s : State, decode (.write 0 2) = .ok .csum ∧
    (s.iovf = true → exec .csum s = .next { s with
      st := 0x00200622, obuf := [], olen := 0, orp := 0, ibuf := [], ilen := 0, iovf := false }) ∧
    (∀ bs, s.iovf = false → operand s = some bs → exec .csum s = .next { s with
      csr := checksum bs, st := 0x00000002,
      ibuf := [], ilen := 0, iovf := false })

/-! ## Metadata -/

/-- R142: pack and unpack are inverse to each other. -/
def Obligations.MetadataBijection : Prop :=
  (∀ F : MetaFields, metaUnpack (metaPack F) = F) ∧ (∀ m : Byte, metaPack (metaUnpack m) = m)

/-- R143: `MPACK` writes `META` and `STATUS` and nothing else. -/
def Obligations.MpackOperation : Prop :=
  ∀ s : State, decode (.write 0 5) = .ok .mpack ∧
    exec .mpack s = .next { s with
      metaR := BitVec.ofNat 8 (128 * s.mfields.flag1.toNat + 8 * s.mfields.packetId.toNat
        + 4 * s.mfields.longFlag.toNat + 2 * s.mfields.expectResponse.toNat + s.mfields.flag4.toNat)
      st := 0x00000005 }

/-- R144: `MUNPK` writes `MFIELDS` and `STATUS` and nothing else. -/
def Obligations.MunpkOperation : Prop :=
  ∀ s : State, decode (.write 0 6) = .ok .munpk ∧
    exec .munpk s = .next { s with
      mfields := { flag1 := decide (s.metaR.toNat / 128 = 1), packetId := BitVec.ofNat 4 (s.metaR.toNat / 8 % 16),
                   longFlag := decide (s.metaR.toNat / 4 % 2 = 1),
                   expectResponse := decide (s.metaR.toNat / 2 % 2 = 1),
                   flag4 := decide (s.metaR.toNat % 2 = 1) }
      st := 0x00000006 }

/-- R146: packing and unpacking, in either order, bring back the register started from. -/
def Obligations.PackUnpackReturn : Prop :=
  ∀ s : State,
    (∃ t u, exec .mpack s = .next t ∧ exec .munpk t = .next u ∧ u.mfields = s.mfields) ∧
    (∃ t u, exec .munpk s = .next t ∧ exec .mpack t = .next u ∧ u.metaR = s.metaR)

/-! ## Serializer -/

/-- R153: what every built frame satisfies, for every instance. -/
def Obligations.BuiltFrameProperties : Prop :=
  ∀ (P : Config.Params) (id c : Byte) (p : List Byte), p.length ≤ 65535 →
    ∃ cs md lo hi : Byte,
      frameEncode P id c p = P.mark :: cs :: md :: c :: lo :: hi :: p ∧
      cs = checksum (md :: c :: lo :: hi :: p) ∧
      md.toNat = 8 * (id.toNat % 16) + 4 * (decide (P.longLimit < p.length + 6)).toNat + 2 ∧
      lo.toNat + 256 * hi.toNat = p.length

/-- R152, R155: `ENC`, with `Overrun` and without: every register and buffer it writes, and that it writes
no other. -/
def Obligations.EncOperation : Prop :=
  ∀ s : State, decode (.write 0 3) = .ok .enc ∧
    (s.iovf = true ∨ 65535 < s.ilen.toNat → exec .enc s = .next { s with
      st := 0x00200623, obuf := [], olen := 0, orp := 0, ibuf := [], ilen := 0, iovf := false }) ∧
    (∀ p, s.iovf = false → s.ilen.toNat ≤ 65535 → operand s = some p →
      let long := decide (20 < p.length + 6)
      let md := BitVec.ofNat 8 (8 * (s.arg.toNat % 16) + 4 * long.toNat + 2)
      let c := BitVec.ofNat 8 (s.arg.toNat / 256)
      let body := [md, c, BitVec.ofNat 8 (p.length % 256), BitVec.ofNat 8 (p.length / 256)] ++ p
      let cs := checksum body
      exec .enc s = .next { s with
        obuf := ofBytes ([Config.mark, cs] ++ body), olen := BitVec.ofNat 17 (p.length + 6), orp := 0
        hdr := BitVec.ofNat 32 (Config.mark.toNat + 256 * cs.toNat + 65536 * md.toNat + 16777216 * c.toNat)
        rlen := BitVec.ofNat 16 p.length, csr := cs, metaR := md
        mfields := { flag1 := false, packetId := BitVec.ofNat 4 (s.arg.toNat % 16), longFlag := long,
                     expectResponse := true, flag4 := false }
        st := 0x00000003, ibuf := [], ilen := 0, iovf := false })

/-! ## Deserializer -/

/-- R221, R226: `DEC` with `Overrun`, and `DEC` of a buffer too short for a header, with the spec's
`MALFORMED_MAX = 5` and with any other. -/
def Obligations.DecWithoutResult : Prop :=
  ∀ s : State, decode (.write 0 4) = .ok .dec ∧
    (s.iovf = true → exec .dec s = .next { s with
      st := 0x00200624, obuf := [], olen := 0, orp := 0, ibuf := [], ilen := 0, iovf := false }) ∧
    (∀ bs, s.iovf = false → operand s = some bs → bs.length ≤ 5 → exec .dec s = .next { s with
      st := 0x00010124, obuf := [], olen := 0, orp := 0, ibuf := [], ilen := 0, iovf := false }) ∧
    (∀ (P : Config.Params) (bs : List Byte), s.iovf = false → operand s = some bs →
      bs.length ≤ P.malformedMax → decOp P s = .next { s with
        st := 0x00010124, obuf := [], olen := 0, orp := 0, ibuf := [], ilen := 0, iovf := false })

/-- R169, R170, R173, R174, R177, R178, R180, R181, in the operation of R175: what `DEC` does with a buffer
that holds a header: every result register, the payload, and `STATUS` with its severity, its one reported
exception and all its flags. -/
def Obligations.DecDeliversFieldsAndOutcome : Prop :=
  ∀ (s : State) (m cs md c l0 l1 : Byte) (p : List Byte), s.iovf = false →
    operand s = some (m :: cs :: md :: c :: l0 :: l1 :: p) →
      let ccs := checksum (md :: c :: l0 :: l1 :: p)
      let vpol := s.cfg.toNat % 4
      let lenmis := decide (l0.toNat + 256 * l1.toNat ≠ p.length)
      let csmis := decide (ccs ≠ cs)
      let ackreq := decide (md.toNat / 2 % 2 = 1)
      let unexp := s.cfg.getLsbD 3 && !s.allow.getLsbD c.toNat
      let hard := decide (vpol = 2) || (decide (vpol = 1) && decide (s.thr.toNat < p.length + 6))
      let err := if lenmis && hard then 2 else if csmis && hard then 3
        else if ackreq && s.cfg.getLsbD 2 then 4 else if unexp then 5 else 0
      let sev := if err ≠ 0 then 2 else if lenmis || csmis || ackreq then 1 else 0
      exec .dec s = .next { s with
        obuf := ofBytes p, olen := BitVec.ofNat 17 p.length, orp := 0
        hdr := BitVec.ofNat 32 (m.toNat + 256 * cs.toNat + 65536 * md.toNat + 16777216 * c.toNat)
        rlen := BitVec.ofNat 16 (l0.toNat + 256 * l1.toNat), csr := ccs, metaR := md
        mfields := metaUnpack md
        st := BitVec.ofNat 25 (4 + 16 * sev + 256 * err + 131072 * lenmis.toNat + 262144 * csmis.toNat
          + 524288 * ackreq.toNat + 1048576 * unexp.toNat)
        ibuf := [], ilen := 0, iovf := false }

/-- R177, R178: a length or checksum mismatch is hard exactly under `STRICT`, or under `THRESHOLD` on a
buffer longer than `THR`. A hard one is the reported exception; one that is not hard leaves the other two
exceptions to apply, and where neither does the decode succeeds with a warning. -/
def Obligations.MismatchPolicy : Prop :=
  ∀ (P : Config.Params) (bs : List Byte) (cfg : DecodeConfig) (r : Decoded),
    frameDecode P bs cfg = some r → (r.lenmis = true ∨ r.csmis = true) →
      let hard := cfg.vpol = 2 ∨ (cfg.vpol = 1 ∧ cfg.thr < bs.length)
      (hard → r.err = some (if r.lenmis then .lengthMismatch else .checksumMismatch) ∧ r.sev = .error) ∧
      (¬ hard → r.ackreq = true → cfg.ackFatal = true →
        r.err = some .unhandledAckRequest ∧ r.sev = .error) ∧
      (¬ hard → ¬ (r.ackreq = true ∧ cfg.ackFatal = true) → r.unexp = true →
        r.err = some .unexpectedCommand ∧ r.sev = .error) ∧
      (¬ hard → ¬ (r.ackreq = true ∧ cfg.ackFatal = true) → r.unexp = false →
        r.err = none ∧ r.sev = .warn)

/-- R171: the mark of a received frame is reported and decides nothing else. -/
def Obligations.MarkIsNotChecked : Prop :=
  ∀ (P : Config.Params) (cfg : DecodeConfig) (m m' : Byte) (bs : List Byte),
    frameDecode P (m' :: bs) cfg = (frameDecode P (m :: bs) cfg).map fun r => { r with mark := m' }

/-- R183: decoding a built frame extracts what was encoded, for every instance, every payload the format
can state and every configuration; the acknowledgement request is always found, so the outcome is never
`OK`. -/
def Obligations.DecodeOfBuiltFrame : Prop :=
  ∀ (P : Config.Params) (cfg : DecodeConfig) (id c : Byte) (p : List Byte),
    P.Legal → p.length ≤ P.payloadMax → (P.malformedMax = 5 ∨ 1 ≤ p.length) →
      ∃ r, frameDecode P (frameEncode P id c p) cfg = some r ∧
        r.mark = P.mark ∧ r.command = c ∧ r.payload = p ∧ r.rlen.toNat = p.length ∧
        r.fields.packetId.toNat = id.toNat % 16 ∧ r.fields.flag1 = false ∧ r.fields.flag4 = false ∧
        r.fields.expectResponse = true ∧ (r.fields.longFlag = true ↔ P.longLimit < p.length + 6) ∧
        r.lenmis = false ∧ r.csmis = false ∧ r.ackreq = true ∧
        (cfg.ackFatal = true → r.err = some .unhandledAckRequest ∧ r.sev = .error) ∧
        (cfg.ackFatal = false → r.unexp = true → r.err = some .unexpectedCommand ∧ r.sev = .error) ∧
        (cfg.ackFatal = false → r.unexp = false → r.err = none ∧ r.sev = .warn)

/-- R156, R183 on the machine: a frame that `ENC` built, loaded back into `IBUF`, decodes to the payload
it was built from, with the same header, id and length, under every configuration. -/
def Obligations.EncThenDecReturnsPayload : Prop :=
  ∀ (s : State) (p : List Byte), s.iovf = false → s.ilen.toNat ≤ 65535 → operand s = some p →
    ∃ t u, exec .enc s = .next t ∧
      exec .dec { t with ibuf := t.obuf, ilen := t.olen } = .next u ∧
      operand { t with ibuf := t.obuf, ilen := t.olen } = some ([Config.mark, t.csr] ++
        [t.metaR, BitVec.ofNat 8 (s.arg.toNat / 256), BitVec.ofNat 8 (p.length % 256),
          BitVec.ofNat 8 (p.length / 256)] ++ p) ∧
      u.obuf = ofBytes p ∧ u.olen.toNat = p.length ∧ u.orp = 0 ∧ u.hdr = t.hdr ∧ u.rlen = t.rlen ∧
      u.csr = t.csr ∧ u.metaR = t.metaR ∧ u.mfields = t.mfields ∧
      ackreqO u = true ∧ (s.cfg.getLsbD 2 = true → u.st = 0x00080424 ∨ u.st = 0x00180424)

/-! ## The byte streams -/

/-- R34: `DIN` pushes the low byte, or drops it and sets `IOVF`; nothing else changes; `RegRead(8)` is 0.
(A returned value is appended to `readData`: log entry 2.) -/
def Obligations.DinPushesOrDrops : Prop :=
  ∀ (s : State) (v : Word), decode (.write 8 v) = .ok (.dinWrite v) ∧
    (s.ilen.toNat < 65541 → exec (.dinWrite v) s = .next { s with
      ibuf := writeByte s.ibuf s.ilen.toNat (BitVec.ofNat 8 (v.toNat % 256))
      ilen := BitVec.ofNat 17 (s.ilen.toNat + 1) }) ∧
    (65541 ≤ s.ilen.toNat → exec (.dinWrite v) s = .next { s with iovf := true }) ∧
    (∀ rest, s.pending = .read 8 :: rest →
      step s = .next { s with pending := rest, readData := s.readData ++ [0] })

/-- R34, R14: the stored byte is read back at its index and every other index of the buffer is as before. -/
def Obligations.DinStoresOneByte : Prop :=
  ∀ (s t : State) (v : Word), exec (.dinWrite v) s = .next t →
    (s.ilen.toNat < 65541 → readByte t.ibuf s.ilen.toNat = some (BitVec.ofNat 8 (v.toNat % 256))) ∧
    (∀ a, a ≠ s.ilen.toNat ∨ 65541 ≤ s.ilen.toNat → readByte t.ibuf a = readByte s.ibuf a) ∧
    (s.ibuf.wf = true → t.ibuf.wf = true) ∧ t.obuf = s.obuf

/-- R35: `DOUT` returns the byte at `ORP` and advances, or returns `EMPTY` and changes nothing;
`RegWrite(9, v)` is ignored. (A returned value is appended to `readData`: log entry 2.) -/
def Obligations.DoutPopsOrIsEmpty : Prop :=
  ∀ s : State, decode (.read 9) = .ok .doutRead ∧
    (∀ b, s.orp.toNat < s.olen.toNat → readByte s.obuf s.orp.toNat = some b →
      exec .doutRead s = .next { s with
        orp := BitVec.ofNat 17 (s.orp.toNat + 1), readData := s.readData ++ [BitVec.ofNat 32 b.toNat] }) ∧
    (s.olen.toNat ≤ s.orp.toNat →
      exec .doutRead s = .next { s with readData := s.readData ++ [0x80000000] }) ∧
    (∀ (v : Word) (rest : List Access), s.pending = .write 9 v :: rest →
      step s = .next { s with pending := rest })

/-- The model's own stop (log entry 4): where a rule would read a buffer index that holds no value, which
R22 and R23 say no rule does, the step faults. -/
def Obligations.UnheldByteFaults : Prop :=
  ∀ s : State,
    (s.orp.toNat < s.olen.toNat → readByte s.obuf s.orp.toNat = none →
      exec .doutRead s = .fault .unwrittenByte) ∧
    (s.iovf = false → operand s = none →
      exec .csum s = .fault .unwrittenByte ∧ exec .dec s = .fault .unwrittenByte ∧
      (s.ilen.toNat ≤ 65535 → exec .enc s = .fault .unwrittenByte))

/-- R71: pushing a byte string into the empty `IBUF`, one `DIN` access a byte, makes it the operand. -/
def Obligations.LoadedBytesAreTheOperand : Prop :=
  ∀ (s : State) (bs : List Byte) (rest : List Access),
    s.ibuf = [] → s.ilen = 0 → bs.length ≤ 65541 →
    s.pending = bs.map (fun b => .write 8 (b.setWidth 32)) ++ rest →
      ∃ t, Host.Core.run core bs.length s = .next t ∧ operand t = some bs ∧
        t = { s with pending := rest, ibuf := ofBytes bs, ilen := BitVec.ofNat 17 bs.length }

/-- R72: reading `DOUT` `OLEN - ORP` times returns the rest of `OBUF` in index order. -/
def Obligations.DrainReturnsTheBuffer : Prop :=
  ∀ (s : State) (bs : List Byte) (rest : List Access),
    s.obuf = ofBytes bs → s.olen.toNat = bs.length → s.orp.toNat ≤ bs.length →
    s.pending = List.replicate (bs.length - s.orp.toNat) (.read 9) ++ rest →
      Host.Core.run core (bs.length - s.orp.toNat) s = .next { s with
        pending := rest, orp := s.olen
        readData := s.readData ++ (bs.drop s.orp.toNat).map (fun b => b.setWidth 32) }

/-! ## The wire formats (the model's choice: log entry 3) -/

/-- Log entry 3: a command byte or a metadata byte enters the block as one `DIN` push of that byte. -/
def Obligations.WireBytesAreCarried : Prop :=
  ∀ (s : State) (i : Instr) (b : Byte),
    ((i, b) ∈ [(Instr.badgeInfoRequest, (0xC6 : Byte)), (.badgeInfoResponse, 0xC7), (.bindRequest, 0x60),
        (.bindResponse, 0x61), (.unbindRequest, 0x62), (.unbindResponse, 0xFF)] ∨
      i = .unknownCommand b ∨
      (∃ m : MetaFields, i = .metadata m ∧ b.toNat = 128 * m.flag1.toNat + 8 * m.packetId.toNat
        + 4 * m.longFlag.toNat + 2 * m.expectResponse.toNat + m.flag4.toNat) ∨
      (∃ (n : BitVec 4) (g : Bool), i = .metadataBuiltByEnc n g ∧ b.toNat = 8 * n.toNat + 4 * g.toNat + 2)) →
    exec i s = .next (if s.ilen.toNat < 65541 then
        { s with ibuf := writeByte s.ibuf s.ilen.toNat b, ilen := BitVec.ofNat 17 (s.ilen.toNat + 1) }
      else { s with iovf := true })

/-- Log entry 3: a frame enters the block as pushes of its header and payload in wire order; bytes beyond
`BUF_CAP` are dropped and set `IOVF` (R34). -/
def Obligations.FramesAreCarriedInWireOrder : Prop :=
  ∀ (s : State) (held : List Byte) (i : Instr) (k cs md c : Byte) (len : BitVec 16) (p : List Byte),
    s.ibuf = ofBytes held → s.ilen.toNat = held.length → held.length ≤ 65541 →
    ((∃ m : MetaFields, i = .frame k cs m c len p ∧ md.toNat = 128 * m.flag1.toNat + 8 * m.packetId.toNat
        + 4 * m.longFlag.toNat + 2 * m.expectResponse.toNat + m.flag4.toNat) ∨
      (∃ (n : BitVec 4) (g : Bool), i = .frameBuiltByEnc k cs n g c len p ∧
        md.toNat = 8 * n.toNat + 4 * g.toNat + 2)) →
    let f := [k, cs, md, c, BitVec.ofNat 8 (len.toNat % 256), BitVec.ofNat 8 (len.toNat / 256)] ++ p
    exec i s = .next { s with
      ibuf := ofBytes ((held ++ f).take 65541)
      ilen := BitVec.ofNat 17 (min (held.length + f.length) 65541)
      iovf := s.iovf || decide (65541 < held.length + f.length) }

/-- Log entry 3, R110: a `PUSH` of a byte string in any format is one step with the effect of one `DIN`
access per byte. -/
def Obligations.PushIsOneDinAccessPerByte : Prop :=
  ∀ (s : State) (f : WireFormat) (bs : List Byte) (rest : List Access),
    step { s with pending := .push f bs :: rest } =
      Host.Core.run core bs.length
        { s with pending := bs.map (fun b => .write 8 (b.setWidth 32)) ++ rest }

/-! ## The whole machine -/

/-- R22, R23, R25, R27, R28: the invariant holds after reset. -/
def Obligations.ResetMeetsTheInvariant : Prop := Inv State.reset

/-- Every step keeps the invariant: the buffers hold exactly the bytes below their counters, the counters
stay in range, `STATUS` stays consistent and the policy legal. -/
def Obligations.StepKeepsTheInvariant : Prop :=
  ∀ s t : State, Inv s → step s = .next t → Inv t

/-- Every host access in a state that meets the invariant has an effect: no step stops. -/
def Obligations.NoAccessStopsTheBlock : Prop :=
  ∀ s : State, Inv s → ∃ t, step s = .next t

/-- R44, R259, R232: no instruction but `SRST` changes the configuration or `ARG`, and none touches the
stream of accesses. -/
def Obligations.ConfigurationChangesOnlyOnReset : Prop :=
  ∀ (i : Instr) (s t : State), exec i s = .next t →
    t.pending = s.pending ∧
    (i ≠ .srst → t.cfg = s.cfg ∧ t.thr = s.thr ∧ t.arg = s.arg ∧ t.allow = s.allow)

/-- R44: which rows of the table may write `STATUS`, the result registers and the buffers. (`CSUM` that
fails empties `OBUF`: R134, R219; log entry 10.) -/
def Obligations.WritesByOperation : Prop :=
  ∀ (i : Instr) (s t : State), exec i s = .next t →
    (t.st = s.st ∨ i ∈ [.clr, .csum, .enc, .dec, .mpack, .munpk, .srst] ∨ ∃ v, i = .illegalCmd v) ∧
    (t.csr = s.csr ∨ i ∈ [.csum, .enc, .dec, .srst]) ∧
    (t.hdr = s.hdr ∧ t.rlen = s.rlen ∨ i ∈ [.enc, .dec, .srst]) ∧
    (t.metaR = s.metaR ∨ i ∈ [.enc, .dec, .mpack, .srst]) ∧
    (t.mfields = s.mfields ∨ i ∈ [.enc, .dec, .munpk, .srst]) ∧
    (t.obuf = s.obuf ∧ t.olen = s.olen ∨ i ∈ [.clr, .csum, .enc, .dec, .srst]) ∧
    (t.orp = s.orp ∨ i ∈ [.clr, .csum, .enc, .dec, .srst, .doutRead]) ∧
    (t.readData = s.readData ∨ i = .doutRead) ∧
    (i ∈ [.nop, .mpack, .munpk, .doutRead] ∨ (∃ v, i = .illegalCmd v) →
      t.ibuf = s.ibuf ∧ t.ilen = s.ilen ∧ t.iovf = s.iovf) ∧
    (i ∈ [.clr, .csum, .enc, .dec, .srst] → t.ibuf = [] ∧ t.ilen = 0 ∧ t.iovf = false)

/-- R20: the outcome of a buffer operation is a function of its operands, the configuration and the
parameters: two states that agree on those agree on everything the operation produces, whatever `STATUS`,
`CSR`, `HDR`, `RLEN`, `META`, `MFIELDS`, `OBUF`, `OLEN` and `ORP` held. -/
def Obligations.NoStateBetweenOperations : Prop :=
  ∀ (i : Instr) (s s' t t' : State), i ∈ [.csum, .enc, .dec] →
    s.ibuf = s'.ibuf → s.ilen = s'.ilen → s.iovf = s'.iovf → s.arg = s'.arg → s.cfg = s'.cfg →
    s.thr = s'.thr → s.allow = s'.allow →
    exec i s = .next t → exec i s' = .next t' →
      t.st = t'.st ∧ t.ibuf = t'.ibuf ∧ t.ilen = t'.ilen ∧ t.iovf = t'.iovf ∧
      (i ∈ [.enc, .dec] → t.obuf = t'.obuf ∧ t.olen = t'.olen ∧ t.orp = t'.orp) ∧
      (errOf t.st ≠ 1 → errOf t.st ≠ 6 → t.csr = t'.csr ∧
        (i ∈ [.enc, .dec] → t.hdr = t'.hdr ∧ t.rlen = t'.rlen ∧ t.metaR = t'.metaR ∧ t.mfields = t'.mfields))

/-- R43, R230: in every state the three lines are functions of `STATUS` as the host reads it (`SEV` in bits
5:4, `ACKREQ` bit 19), and `err_o` and `warn_o` are never 1 together. R179, R218: after `DEC` of a buffer
with a header, `ackreq_o` is the frame's `expect_response` bit, `err_o` is 1 exactly when an exception is
reported, and `warn_o` is 1 exactly when none is and the length mismatches, the checksum mismatches or an
acknowledgement is requested. -/
def Obligations.OutputLinesShowTheOutcome : Prop :=
  (∀ s : State,
    (errO s = true ↔ (statusView s).toNat / 16 % 4 = 2) ∧
    (warnO s = true ↔ (statusView s).toNat / 16 % 4 = 1) ∧
    (ackreqO s = true ↔ (statusView s).toNat / 524288 % 2 = 1) ∧
    ¬ (errO s = true ∧ warnO s = true)) ∧
  (∀ (s t : State) (m cs md c l0 l1 : Byte) (p : List Byte), s.iovf = false →
    operand s = some (m :: cs :: md :: c :: l0 :: l1 :: p) → exec .dec s = .next t →
      (ackreqO t = true ↔ md.toNat / 2 % 2 = 1) ∧
      (errO t = true ↔ errOf t.st ≠ 0) ∧
      (warnO t = true ↔ errOf t.st = 0 ∧
        (l0.toNat + 256 * l1.toNat ≠ p.length ∨ checksum (md :: c :: l0 :: l1 :: p) ≠ cs ∨
          md.toNat / 2 % 2 = 1)))
end

