-- ==== Sys2Proof/Laws/Codec.lean ====
section
/-! SUPPORT. Small laws of the pure functions, and the layouts of bytes and registers as arithmetic. -/

namespace Sys2Proof.Machine

open Sys2Proof.Config (Params)

/-- An or of numbers whose bits do not meet is a sum. -/
theorem shiftLeft_or_eq (a b k : Nat) (h : b < 2 ^ k) : a <<< k ||| b = a * 2 ^ k + b := by
  rw [← Nat.shiftLeft_add_eq_or_of_lt h, Nat.shiftLeft_eq]

/-! ## Bytes and checksums -/

/-- Wrap-around keeps the byte (R12). -/
@[simp] theorem u8_wrap8 (i : Int) : u8 (wrap8 i) = u8 i := by
  simp only [u8, wrap8, s8, BitVec.ofInt_toInt]

/-- Adding a signed byte adds the byte modulo 256 (R12). -/
theorem u8_add_s8 (i : Int) (b : Byte) : u8 (i + s8 b) = u8 i + b := by
  simp only [u8, s8, BitVec.ofInt_add, BitVec.ofInt_toInt]

/-- The accumulator of R130 from any start, read as a byte. -/
theorem u8_foldl (s : List Byte) (acc : Int) :
    u8 (s.foldl (fun acc b => wrap8 (acc + s8 b)) acc) = s.foldl (· + ·) (u8 acc) := by
  induction s generalizing acc with
  | nil => rfl
  | cons b s ih => simp only [List.foldl_cons, ih, u8_wrap8, u8_add_s8]

/-! ## Layouts -/

/-- R103: `reported_length = f[4] + 256 * f[5]`. -/
theorem toNat_lengthOf (lo hi : Byte) : (lengthOf lo hi).toNat = lo.toNat + 256 * hi.toNat := by
  simp only [lengthOf, BitVec.toNat_append, shiftLeft_or_eq _ _ _ lo.isLt]
  omega

@[simp] theorem toNat_lengthLow (len : BitVec 16) : (lengthLow len).toNat = len.toNat % 256 := by
  simp only [lengthLow, BitVec.extractLsb'_toNat, Nat.shiftRight_zero]

@[simp] theorem toNat_lengthHigh (len : BitVec 16) : (lengthHigh len).toNat = len.toNat / 256 := by
  simp only [lengthHigh, BitVec.extractLsb'_toNat, Nat.shiftRight_eq_div_pow]
  have := len.isLt
  omega

@[simp] theorem lengthOf_low_high (len : BitVec 16) : lengthOf (lengthLow len) (lengthHigh len) = len := by
  apply BitVec.eq_of_toNat_eq
  rw [toNat_lengthOf, toNat_lengthLow, toNat_lengthHigh]
  omega

@[simp] theorem lengthLow_lengthOf (lo hi : Byte) : lengthLow (lengthOf lo hi) = lo := by
  apply BitVec.eq_of_toNat_eq
  have := lo.isLt
  rw [toNat_lengthLow, toNat_lengthOf]
  omega

@[simp] theorem lengthHigh_lengthOf (lo hi : Byte) : lengthHigh (lengthOf lo hi) = hi := by
  apply BitVec.eq_of_toNat_eq
  have := lo.isLt
  rw [toNat_lengthHigh, toNat_lengthOf]
  omega

/-- R104 as arithmetic. -/
theorem toNat_metaPack (F : MetaFields) :
    (metaPack F).toNat = 128 * F.flag1.toNat + 8 * F.packetId.toNat + 4 * F.longFlag.toNat
      + 2 * F.expectResponse.toNat + F.flag4.toNat := by
  simp only [metaPack, BitVec.toNat_append, BitVec.toNat_ofBool]
  repeat rw [shiftLeft_or_eq _ _ _ (by first | exact BitVec.isLt _ | exact Bool.toNat_lt _)]
  omega

/-- R39: frame byte `k` stands in bits `8k + 7 : 8k`. -/
theorem toNat_headerWord (b0 b1 b2 b3 : Byte) :
    (headerWord b0 b1 b2 b3).toNat
      = b0.toNat + 256 * b1.toNat + 65536 * b2.toNat + 16777216 * b3.toNat := by
  simp only [headerWord, BitVec.toNat_append]
  repeat rw [shiftLeft_or_eq _ _ _ (BitVec.isLt _)]
  omega

/-- R27: the places of the fields of `STATUS`. -/
theorem toNat_packStatus (f : StatusFields) :
    (packStatus f).toNat = f.lastop.toNat + 16 * f.sev.code.toNat + 256 * (errCode f.err).toNat
      + 65536 * f.malformed.toNat + 131072 * f.lenmis.toNat + 262144 * f.csmis.toNat
      + 524288 * f.ackreq.toNat + 1048576 * f.unexp.toNat + 2097152 * f.overrun.toNat
      + 4194304 * f.illop.toNat := by
  simp only [packStatus, BitVec.toNat_append, BitVec.toNat_ofBool, BitVec.toNat_ofNat]
  repeat rw [shiftLeft_or_eq _ _ _ (by first | exact BitVec.isLt _ | exact Bool.toNat_lt _ | decide)]
  omega

/-- R32: the places of the fields of `MFIELDS`. -/
theorem toNat_mfieldsView (F : MetaFields) :
    (mfieldsView F).toNat = F.packetId.toNat + 256 * F.longFlag.toNat + 512 * F.expectResponse.toNat
      + 1024 * F.flag1.toNat + 2048 * F.flag4.toNat := by
  simp only [mfieldsView, BitVec.toNat_append, BitVec.toNat_ofBool, BitVec.toNat_ofNat]
  repeat rw [shiftLeft_or_eq _ _ _ (by first | exact BitVec.isLt _ | exact Bool.toNat_lt _ | decide)]
  omega

/-- R27: the stored bits 23 to 0, then the live `IOVF`. -/
theorem toNat_statusView (s : State) :
    (statusView s).toNat = s.st.toNat % 16777216 + 16777216 * s.iovf.toNat := by
  simp only [statusView, BitVec.toNat_append, BitVec.toNat_ofBool, BitVec.toNat_ofNat,
    BitVec.extractLsb'_toNat, Nat.shiftRight_zero]
  repeat rw [shiftLeft_or_eq _ _ _ (by first | exact Bool.toNat_lt _ | exact Nat.mod_lt _ (by decide))]
  omega

theorem toNat_lastopOf (st : BitVec 25) : (lastopOf st).toNat = st.toNat % 16 := by
  simp only [lastopOf, BitVec.extractLsb'_toNat, Nat.shiftRight_zero]

theorem toNat_sevOf (st : BitVec 25) : (sevOf st).toNat = st.toNat / 16 % 4 := by
  simp only [sevOf, BitVec.extractLsb'_toNat, Nat.shiftRight_eq_div_pow]

theorem toNat_errOf (st : BitVec 25) : (errOf st).toNat = st.toNat / 256 % 16 := by
  simp only [errOf, BitVec.extractLsb'_toNat, Nat.shiftRight_eq_div_pow]

/-- `SEV` of a packed status is the severity that was packed. -/
theorem sevOf_packStatus (f : StatusFields) : sevOf (packStatus f) = f.sev.code := by
  apply BitVec.eq_of_toNat_eq
  have := toNat_packStatus f
  have := f.lastop.isLt
  have := f.sev.code.isLt
  rw [toNat_sevOf]
  omega

/-- `ERR` of a packed status is the code of the exception that was packed. -/
theorem errOf_packStatus (f : StatusFields) : errOf (packStatus f) = errCode f.err := by
  apply BitVec.eq_of_toNat_eq
  have := toNat_packStatus f
  have := f.lastop.isLt
  have := f.sev.code.isLt
  have := (errCode f.err).isLt
  rw [toNat_errOf]
  omega

/-- R41: the bits of the bitmap after a write to `ALLOWk`. -/
theorem getLsbD_setAllowWord (m : BitVec 256) (k : Nat) (v : Word) (j : Nat) (hk : k < 8) :
    (setAllowWord m k v).getLsbD j =
      if 32 * k ≤ j ∧ j < 32 * k + 32 then v.getLsbD (j - 32 * k) else m.getLsbD j := by
  simp only [setAllowWord, BitVec.getLsbD_or, BitVec.getLsbD_and, BitVec.getLsbD_not,
    BitVec.getLsbD_shiftLeft, BitVec.getLsbD_setWidth, BitVec.getLsbD_allOnes]
  by_cases hj : j < 256
  · by_cases a1 : j < 32 * k
    · rw [if_neg (by omega)]; simp [hj, a1]
    · by_cases a3 : j - 32 * k < 32
      · rw [if_pos (by omega)]
        simp only [hj, a1, a3, show j - 32 * k < 256 by omega]; simp
      · rw [if_neg (by omega)]
        simp only [hj, a1, a3, BitVec.getLsbD_of_ge v _ (not_lt.1 a3)]; simp
  · rw [if_neg (by omega)]
    simp only [BitVec.getLsbD_of_ge m _ (not_lt.1 hj), hj]; simp

/-! ## Metadata and frames -/

/-- Fields of the pattern `0iiiig10` are the built ones. -/
theorem eq_builtFields {m : MetaFields} (h : builtMeta m = true) :
    builtFields m.packetId m.longFlag = m := by
  obtain ⟨a, i, g, e, b⟩ := m
  simp only [builtMeta, Bool.and_eq_true, Bool.not_eq_true'] at h
  obtain ⟨⟨rfl, rfl⟩, rfl⟩ := h
  rfl

@[simp] theorem builtMeta_builtFields (i : BitVec 4) (g : Bool) : builtMeta (builtFields i g) = true := rfl

/-- A frame has the six header bytes and its payload. -/
@[simp] theorem frameEncode_length (P : Params) (id c : Byte) (payload : List Byte) :
    (frameEncode P id c payload).length = payload.length + 6 := by
  simp [frameEncode]

/-- R181: the exception a parsed buffer reports, from its own flags. -/
theorem decodeParts_err (cfg : DecodeConfig) (m cs md c l0 l1 : Byte) (p : List Byte) :
    (decodeParts cfg m cs md c l0 l1 p).err =
      pickErr (hardMismatch cfg (p.length + 6)) (decodeParts cfg m cs md c l0 l1 p).lenmis
        (decodeParts cfg m cs md c l0 l1 p).csmis (decodeParts cfg m cs md c l0 l1 p).ackreq cfg.ackFatal
        (decodeParts cfg m cs md c l0 l1 p).unexp := rfl

/-- R166: the severity of a parsed buffer, from its exception and its flags. -/
theorem decodeParts_sev (cfg : DecodeConfig) (m cs md c l0 l1 : Byte) (p : List Byte) :
    (decodeParts cfg m cs md c l0 l1 p).sev =
      pickSev (decodeParts cfg m cs md c l0 l1 p).err (decodeParts cfg m cs md c l0 l1 p).lenmis
        (decodeParts cfg m cs md c l0 l1 p).csmis (decodeParts cfg m cs md c l0 l1 p).ackreq := rfl

/-- A buffer that decodes has a header. -/
theorem frameDecode_some {P : Params} {bs : List Byte} {cfg : DecodeConfig} {r : Decoded}
    (h : frameDecode P bs cfg = some r) :
    P.malformedMax < bs.length ∧ ∃ m cs md c l0 l1 payload,
      bs = m :: cs :: md :: c :: l0 :: l1 :: payload ∧ r = decodeParts cfg m cs md c l0 l1 payload := by
  simp only [frameDecode] at h
  split at h
  · cases h
  · next hlt =>
    split at h
    · next m cs md c l0 l1 payload =>
      exact ⟨not_le.1 hlt, m, cs, md, c, l0, l1, payload, rfl, (Option.some.inj h).symm⟩
    · cases h

/-- A buffer with a header, longer than `MALFORMED_MAX`, decodes. -/
theorem frameDecode_header (P : Params) (cfg : DecodeConfig) (m cs md c l0 l1 : Byte) (payload : List Byte)
    (h : P.malformedMax < payload.length + 6) :
    frameDecode P (m :: cs :: md :: c :: l0 :: l1 :: payload) cfg
      = some (decodeParts cfg m cs md c l0 l1 payload) := by
  have hn : ¬ (m :: cs :: md :: c :: l0 :: l1 :: payload).length ≤ P.malformedMax := by
    simp only [List.length_cons]; omega
  rw [frameDecode, if_neg hn]

/-- A buffer too short for a header is `Malformed`. -/
theorem frameDecode_short (P : Params) (cfg : DecodeConfig) (bs : List Byte)
    (h : bs.length ≤ P.malformedMax) : frameDecode P bs cfg = none := by
  unfold frameDecode
  exact if_pos h

end Sys2Proof.Machine
end

