-- ==== Sys2Proof/Laws/Memory.lean ====
section
/-! SUPPORT. The basic laws of the byte buffers: read after write, the canonical form, and a buffer that
holds exactly the indices below its length. -/

namespace Sys2Proof.Machine

@[simp] theorem readByte_writeByte_same (m : Memory) (a : Nat) (v : Byte) :
    readByte (writeByte m a v) a = some v := by
  induction m with
  | nil => simp [writeByte, readByte]
  | cons c m ih =>
    obtain ⟨k, b⟩ := c
    simp only [writeByte]
    split
    · simp [readByte]
    · split
      · simp [readByte]
      · next h => simp [readByte, Ne.symm h, ih]

theorem readByte_writeByte_other (m : Memory) {a c : Nat} (v : Byte) (hne : c ≠ a) :
    readByte (writeByte m a v) c = readByte m c := by
  induction m with
  | nil => simp [writeByte, readByte, Ne.symm hne]
  | cons x m ih =>
    obtain ⟨k, b⟩ := x
    simp only [writeByte]
    split
    · simp [readByte, Ne.symm hne]
    · split
      · next h => subst h; simp [readByte, Ne.symm hne]
      · simp [readByte, ih]

theorem writeByte_addresses (m : Memory) (a : Nat) (v : Byte) (k : Nat) :
    k ∈ (writeByte m a v).map Prod.fst → k = a ∨ k ∈ m.map Prod.fst := by
  induction m with
  | nil => simp [writeByte]
  | cons x m ih =>
    obtain ⟨j, b⟩ := x
    simp only [writeByte]
    split
    · simp
    · split
      · simp_all
      · intro h
        simp only [List.map_cons, List.mem_cons] at h ih ⊢
        rcases h with h | h
        · exact .inr (.inl h)
        · exact (ih h).imp_right .inr

/-- A write keeps the canonical form. -/
theorem wf_writeByte (m : Memory) (a : Nat) (v : Byte) (h : m.wf = true) :
    Memory.wf (writeByte m a v) = true := by
  simp only [Memory.wf, decide_eq_true_eq] at *
  induction m with
  | nil => simp [writeByte]
  | cons x m ih =>
    obtain ⟨k, b⟩ := x
    obtain ⟨hk, hm⟩ := List.pairwise_cons.1 h
    simp only [writeByte]
    split
    · next hlt =>
      refine List.pairwise_cons.2 ⟨fun y hy => ?_, h⟩
      rcases List.mem_cons.1 hy with rfl | hy
      · exact hlt
      · exact lt_trans hlt (hk _ hy)
    · split
      · next heq => subst heq; exact List.pairwise_cons.2 ⟨hk, hm⟩
      · next hge hne =>
        refine List.pairwise_cons.2 ⟨fun y hy => ?_, ih hm⟩
        rcases writeByte_addresses m a v y hy with rfl | hy
        · exact lt_of_le_of_ne (not_lt.1 hge) (Ne.symm hne)
        · exact hk _ hy

theorem cellsFrom_addresses (bs : List Byte) (n : Nat) :
    (cellsFrom n bs).map Prod.fst = List.range' n bs.length := by
  induction bs generalizing n with
  | nil => rfl
  | cons b bs ih => simp [cellsFrom, ih, List.range'_succ]

/-- A stored byte string is in canonical form. -/
theorem wf_ofBytes (bs : List Byte) : Memory.wf (ofBytes bs) = true := by
  simpa [Memory.wf, ofBytes, cellsFrom_addresses] using List.pairwise_lt_range' (s := 0) (n := bs.length)

/-- The buffers after reset are in canonical form. -/
theorem wf_reset : State.reset.ibuf.wf = true ∧ State.reset.obuf.wf = true := by decide

theorem readByte_cellsFrom (bs : List Byte) (n a : Nat) :
    readByte (cellsFrom n bs) a = if n ≤ a then bs[a - n]? else none := by
  induction bs generalizing n with
  | nil => simp [cellsFrom, readByte]
  | cons b bs ih =>
    simp only [cellsFrom, readByte, ih]
    by_cases h : n = a
    · simp [h]
    · by_cases h' : n ≤ a
      · obtain ⟨j, rfl⟩ : ∃ j, a = n + 1 + j := ⟨a - (n + 1), by omega⟩
        simp [h, show n + 1 + j - n = j + 1 by omega]
        omega
      · simp [h, h', show ¬ n + 1 ≤ a by omega]

/-- The byte at index `a` of a stored byte string. -/
@[simp] theorem readByte_ofBytes (bs : List Byte) (a : Nat) : readByte (ofBytes bs) a = bs[a]? := by
  simp [ofBytes, readByte_cellsFrom]

theorem writeByte_cellsFrom_end (bs : List Byte) (n : Nat) (v : Byte) :
    writeByte (cellsFrom n bs) (n + bs.length) v = cellsFrom n (bs ++ [v]) := by
  induction bs generalizing n with
  | nil => rfl
  | cons b bs ih =>
    have h := ih (n + 1)
    rw [show n + 1 + bs.length = n + (b :: bs).length by simp; omega] at h
    simp [cellsFrom, writeByte, ← h]

/-- A push at the end of a stored byte string stores the longer string. -/
@[simp] theorem writeByte_ofBytes_end (bs : List Byte) (v : Byte) :
    writeByte (ofBytes bs) bs.length v = ofBytes (bs ++ [v]) := by
  simpa [ofBytes] using writeByte_cellsFrom_end bs 0 v

theorem readBytes_cons_of_lt (m : Memory) (k : Nat) (b : Byte) (a n : Nat) (h : k < a) :
    readBytes ((k, b) :: m) a n = readBytes m a n := by
  induction n generalizing a with
  | zero => rfl
  | succ n ih => simp [readBytes, readByte, Nat.ne_of_lt h, ih (a + 1) (by omega)]

theorem readBytes_cellsFrom (bs : List Byte) (n : Nat) :
    readBytes (cellsFrom n bs) n bs.length = some bs := by
  induction bs generalizing n with
  | nil => rfl
  | cons b bs ih =>
    simp [readBytes, cellsFrom, readByte, readBytes_cons_of_lt _ n b (n + 1) _ (Nat.lt_succ_self n), ih]

/-- Reading back a stored byte string. -/
@[simp] theorem readBytes_ofBytes (bs : List Byte) : readBytes (ofBytes bs) 0 bs.length = some bs :=
  readBytes_cellsFrom bs 0

theorem eq_cellsFrom_of_addresses (m : Memory) (a n : Nat) (h : m.map Prod.fst = List.range' a n) :
    m = cellsFrom a (m.map Prod.snd) := by
  induction m generalizing a n with
  | nil => rfl
  | cons x m ih =>
    obtain ⟨k, b⟩ := x
    cases n with
    | zero => simp at h
    | succ n =>
      obtain ⟨rfl, h⟩ : k = a ∧ m.map Prod.fst = List.range' (a + 1) n := by
        simpa [List.range'_succ] using h
      simpa [cellsFrom] using ih (k + 1) n h

/-- A buffer that holds exactly the indices below `n` is a stored byte string of length `n`. -/
theorem holdsExactly_iff (m : Memory) (n : Nat) :
    HoldsExactly m n ↔ ∃ bs : List Byte, m = ofBytes bs ∧ bs.length = n := by
  constructor
  · intro h
    refine ⟨m.map Prod.snd, eq_cellsFrom_of_addresses m 0 n ?_, ?_⟩
    · simpa [HoldsExactly, List.range_eq_range'] using h
    · simpa using congrArg List.length h
  · rintro ⟨bs, rfl, rfl⟩
    simp [HoldsExactly, ofBytes, cellsFrom_addresses, List.range_eq_range']

@[simp] theorem holdsExactly_ofBytes (bs : List Byte) : HoldsExactly (ofBytes bs) bs.length :=
  (holdsExactly_iff _ _).2 ⟨bs, rfl, rfl⟩

/-- A buffer that holds exactly the indices below its length is in canonical form. -/
theorem wf_of_holdsExactly {m : Memory} {n : Nat} (h : HoldsExactly m n) : m.wf = true := by
  obtain ⟨bs, rfl, -⟩ := (holdsExactly_iff m n).1 h
  exact wf_ofBytes bs

theorem readBytes_length (m : Memory) (a n : Nat) (bs : List Byte) (h : readBytes m a n = some bs) :
    bs.length = n := by
  induction n generalizing a bs with
  | zero => simp only [readBytes, Option.some.injEq] at h; subst h; rfl
  | succ n ih =>
    simp only [readBytes] at h
    split at h
    · next h2 => cases h; simp [ih _ _ h2]
    · cases h

/-- The operand has `ILEN` bytes. -/
theorem operand_length {s : State} {bs : List Byte} (h : operand s = some bs) : bs.length = s.ilen.toNat :=
  readBytes_length _ _ _ _ h

/-- Where the buffers are as the spec has them, the operand of a buffer operation is a byte string. -/
theorem operand_of_holdsExactly {s : State} (h : HoldsExactly s.ibuf s.ilen.toNat) :
    ∃ bs, operand s = some bs ∧ s.ibuf = ofBytes bs ∧ bs.length = s.ilen.toNat := by
  obtain ⟨bs, hm, hl⟩ := (holdsExactly_iff _ _).1 h
  exact ⟨bs, by simp [operand, hm, ← hl], hm, hl⟩

end Sys2Proof.Machine
end

