-- ==== Sys2Proof/Laws/State.lean ====
section
/-! SUPPORT. What each named update of the state does to each field: one lemma per field per update. -/

namespace Sys2Proof.Machine

/-! The spec's parameters (R7 to R9). -/

@[simp] theorem params_payloadMax : Config.params.payloadMax = 65535 := rfl
@[simp] theorem params_malformedMax : Config.params.malformedMax = 5 := rfl
@[simp] theorem params_longLimit : Config.params.longLimit = 20 := rfl
@[simp] theorem params_bufCap : Config.params.bufCap = 65541 := rfl
@[simp] theorem params_mark : Config.params.mark = Config.mark := rfl

variable (s : State)

section
variable (f : StatusFields)

@[simp] theorem State.setStatus_ibuf : (s.setStatus f).ibuf = s.ibuf := rfl
@[simp] theorem State.setStatus_ilen : (s.setStatus f).ilen = s.ilen := rfl
@[simp] theorem State.setStatus_iovf : (s.setStatus f).iovf = s.iovf := rfl
@[simp] theorem State.setStatus_obuf : (s.setStatus f).obuf = s.obuf := rfl
@[simp] theorem State.setStatus_olen : (s.setStatus f).olen = s.olen := rfl
@[simp] theorem State.setStatus_orp : (s.setStatus f).orp = s.orp := rfl
@[simp] theorem State.setStatus_st : (s.setStatus f).st = packStatus f := rfl
@[simp] theorem State.setStatus_cfg : (s.setStatus f).cfg = s.cfg := rfl
@[simp] theorem State.setStatus_thr : (s.setStatus f).thr = s.thr := rfl
@[simp] theorem State.setStatus_arg : (s.setStatus f).arg = s.arg := rfl
@[simp] theorem State.setStatus_metaR : (s.setStatus f).metaR = s.metaR := rfl
@[simp] theorem State.setStatus_mfields : (s.setStatus f).mfields = s.mfields := rfl
@[simp] theorem State.setStatus_csr : (s.setStatus f).csr = s.csr := rfl
@[simp] theorem State.setStatus_hdr : (s.setStatus f).hdr = s.hdr := rfl
@[simp] theorem State.setStatus_rlen : (s.setStatus f).rlen = s.rlen := rfl
@[simp] theorem State.setStatus_allow : (s.setStatus f).allow = s.allow := rfl
@[simp] theorem State.setStatus_pending : (s.setStatus f).pending = s.pending := rfl
@[simp] theorem State.setStatus_readData : (s.setStatus f).readData = s.readData := rfl

end

section
variable (v : Byte)

@[simp] theorem State.setCsr_ibuf : (s.setCsr v).ibuf = s.ibuf := rfl
@[simp] theorem State.setCsr_ilen : (s.setCsr v).ilen = s.ilen := rfl
@[simp] theorem State.setCsr_iovf : (s.setCsr v).iovf = s.iovf := rfl
@[simp] theorem State.setCsr_obuf : (s.setCsr v).obuf = s.obuf := rfl
@[simp] theorem State.setCsr_olen : (s.setCsr v).olen = s.olen := rfl
@[simp] theorem State.setCsr_orp : (s.setCsr v).orp = s.orp := rfl
@[simp] theorem State.setCsr_st : (s.setCsr v).st = s.st := rfl
@[simp] theorem State.setCsr_cfg : (s.setCsr v).cfg = s.cfg := rfl
@[simp] theorem State.setCsr_thr : (s.setCsr v).thr = s.thr := rfl
@[simp] theorem State.setCsr_arg : (s.setCsr v).arg = s.arg := rfl
@[simp] theorem State.setCsr_metaR : (s.setCsr v).metaR = s.metaR := rfl
@[simp] theorem State.setCsr_mfields : (s.setCsr v).mfields = s.mfields := rfl
@[simp] theorem State.setCsr_csr : (s.setCsr v).csr = v := rfl
@[simp] theorem State.setCsr_hdr : (s.setCsr v).hdr = s.hdr := rfl
@[simp] theorem State.setCsr_rlen : (s.setCsr v).rlen = s.rlen := rfl
@[simp] theorem State.setCsr_allow : (s.setCsr v).allow = s.allow := rfl
@[simp] theorem State.setCsr_pending : (s.setCsr v).pending = s.pending := rfl
@[simp] theorem State.setCsr_readData : (s.setCsr v).readData = s.readData := rfl

end

section
variable (v : Byte)

@[simp] theorem State.setMeta_ibuf : (s.setMeta v).ibuf = s.ibuf := rfl
@[simp] theorem State.setMeta_ilen : (s.setMeta v).ilen = s.ilen := rfl
@[simp] theorem State.setMeta_iovf : (s.setMeta v).iovf = s.iovf := rfl
@[simp] theorem State.setMeta_obuf : (s.setMeta v).obuf = s.obuf := rfl
@[simp] theorem State.setMeta_olen : (s.setMeta v).olen = s.olen := rfl
@[simp] theorem State.setMeta_orp : (s.setMeta v).orp = s.orp := rfl
@[simp] theorem State.setMeta_st : (s.setMeta v).st = s.st := rfl
@[simp] theorem State.setMeta_cfg : (s.setMeta v).cfg = s.cfg := rfl
@[simp] theorem State.setMeta_thr : (s.setMeta v).thr = s.thr := rfl
@[simp] theorem State.setMeta_arg : (s.setMeta v).arg = s.arg := rfl
@[simp] theorem State.setMeta_metaR : (s.setMeta v).metaR = v := rfl
@[simp] theorem State.setMeta_mfields : (s.setMeta v).mfields = s.mfields := rfl
@[simp] theorem State.setMeta_csr : (s.setMeta v).csr = s.csr := rfl
@[simp] theorem State.setMeta_hdr : (s.setMeta v).hdr = s.hdr := rfl
@[simp] theorem State.setMeta_rlen : (s.setMeta v).rlen = s.rlen := rfl
@[simp] theorem State.setMeta_allow : (s.setMeta v).allow = s.allow := rfl
@[simp] theorem State.setMeta_pending : (s.setMeta v).pending = s.pending := rfl
@[simp] theorem State.setMeta_readData : (s.setMeta v).readData = s.readData := rfl

end

section
variable (v : MetaFields)

@[simp] theorem State.setMfields_ibuf : (s.setMfields v).ibuf = s.ibuf := rfl
@[simp] theorem State.setMfields_ilen : (s.setMfields v).ilen = s.ilen := rfl
@[simp] theorem State.setMfields_iovf : (s.setMfields v).iovf = s.iovf := rfl
@[simp] theorem State.setMfields_obuf : (s.setMfields v).obuf = s.obuf := rfl
@[simp] theorem State.setMfields_olen : (s.setMfields v).olen = s.olen := rfl
@[simp] theorem State.setMfields_orp : (s.setMfields v).orp = s.orp := rfl
@[simp] theorem State.setMfields_st : (s.setMfields v).st = s.st := rfl
@[simp] theorem State.setMfields_cfg : (s.setMfields v).cfg = s.cfg := rfl
@[simp] theorem State.setMfields_thr : (s.setMfields v).thr = s.thr := rfl
@[simp] theorem State.setMfields_arg : (s.setMfields v).arg = s.arg := rfl
@[simp] theorem State.setMfields_metaR : (s.setMfields v).metaR = s.metaR := rfl
@[simp] theorem State.setMfields_mfields : (s.setMfields v).mfields = v := rfl
@[simp] theorem State.setMfields_csr : (s.setMfields v).csr = s.csr := rfl
@[simp] theorem State.setMfields_hdr : (s.setMfields v).hdr = s.hdr := rfl
@[simp] theorem State.setMfields_rlen : (s.setMfields v).rlen = s.rlen := rfl
@[simp] theorem State.setMfields_allow : (s.setMfields v).allow = s.allow := rfl
@[simp] theorem State.setMfields_pending : (s.setMfields v).pending = s.pending := rfl
@[simp] theorem State.setMfields_readData : (s.setMfields v).readData = s.readData := rfl

end

section
variable (v : BitVec 4)

@[simp] theorem State.setCfg_ibuf : (s.setCfg v).ibuf = s.ibuf := rfl
@[simp] theorem State.setCfg_ilen : (s.setCfg v).ilen = s.ilen := rfl
@[simp] theorem State.setCfg_iovf : (s.setCfg v).iovf = s.iovf := rfl
@[simp] theorem State.setCfg_obuf : (s.setCfg v).obuf = s.obuf := rfl
@[simp] theorem State.setCfg_olen : (s.setCfg v).olen = s.olen := rfl
@[simp] theorem State.setCfg_orp : (s.setCfg v).orp = s.orp := rfl
@[simp] theorem State.setCfg_st : (s.setCfg v).st = s.st := rfl
@[simp] theorem State.setCfg_cfg : (s.setCfg v).cfg = v := rfl
@[simp] theorem State.setCfg_thr : (s.setCfg v).thr = s.thr := rfl
@[simp] theorem State.setCfg_arg : (s.setCfg v).arg = s.arg := rfl
@[simp] theorem State.setCfg_metaR : (s.setCfg v).metaR = s.metaR := rfl
@[simp] theorem State.setCfg_mfields : (s.setCfg v).mfields = s.mfields := rfl
@[simp] theorem State.setCfg_csr : (s.setCfg v).csr = s.csr := rfl
@[simp] theorem State.setCfg_hdr : (s.setCfg v).hdr = s.hdr := rfl
@[simp] theorem State.setCfg_rlen : (s.setCfg v).rlen = s.rlen := rfl
@[simp] theorem State.setCfg_allow : (s.setCfg v).allow = s.allow := rfl
@[simp] theorem State.setCfg_pending : (s.setCfg v).pending = s.pending := rfl
@[simp] theorem State.setCfg_readData : (s.setCfg v).readData = s.readData := rfl

end

section
variable (v : BitVec 17)

@[simp] theorem State.setThr_ibuf : (s.setThr v).ibuf = s.ibuf := rfl
@[simp] theorem State.setThr_ilen : (s.setThr v).ilen = s.ilen := rfl
@[simp] theorem State.setThr_iovf : (s.setThr v).iovf = s.iovf := rfl
@[simp] theorem State.setThr_obuf : (s.setThr v).obuf = s.obuf := rfl
@[simp] theorem State.setThr_olen : (s.setThr v).olen = s.olen := rfl
@[simp] theorem State.setThr_orp : (s.setThr v).orp = s.orp := rfl
@[simp] theorem State.setThr_st : (s.setThr v).st = s.st := rfl
@[simp] theorem State.setThr_cfg : (s.setThr v).cfg = s.cfg := rfl
@[simp] theorem State.setThr_thr : (s.setThr v).thr = v := rfl
@[simp] theorem State.setThr_arg : (s.setThr v).arg = s.arg := rfl
@[simp] theorem State.setThr_metaR : (s.setThr v).metaR = s.metaR := rfl
@[simp] theorem State.setThr_mfields : (s.setThr v).mfields = s.mfields := rfl
@[simp] theorem State.setThr_csr : (s.setThr v).csr = s.csr := rfl
@[simp] theorem State.setThr_hdr : (s.setThr v).hdr = s.hdr := rfl
@[simp] theorem State.setThr_rlen : (s.setThr v).rlen = s.rlen := rfl
@[simp] theorem State.setThr_allow : (s.setThr v).allow = s.allow := rfl
@[simp] theorem State.setThr_pending : (s.setThr v).pending = s.pending := rfl
@[simp] theorem State.setThr_readData : (s.setThr v).readData = s.readData := rfl

end

section
variable (v : BitVec 16)

@[simp] theorem State.setArg_ibuf : (s.setArg v).ibuf = s.ibuf := rfl
@[simp] theorem State.setArg_ilen : (s.setArg v).ilen = s.ilen := rfl
@[simp] theorem State.setArg_iovf : (s.setArg v).iovf = s.iovf := rfl
@[simp] theorem State.setArg_obuf : (s.setArg v).obuf = s.obuf := rfl
@[simp] theorem State.setArg_olen : (s.setArg v).olen = s.olen := rfl
@[simp] theorem State.setArg_orp : (s.setArg v).orp = s.orp := rfl
@[simp] theorem State.setArg_st : (s.setArg v).st = s.st := rfl
@[simp] theorem State.setArg_cfg : (s.setArg v).cfg = s.cfg := rfl
@[simp] theorem State.setArg_thr : (s.setArg v).thr = s.thr := rfl
@[simp] theorem State.setArg_arg : (s.setArg v).arg = v := rfl
@[simp] theorem State.setArg_metaR : (s.setArg v).metaR = s.metaR := rfl
@[simp] theorem State.setArg_mfields : (s.setArg v).mfields = s.mfields := rfl
@[simp] theorem State.setArg_csr : (s.setArg v).csr = s.csr := rfl
@[simp] theorem State.setArg_hdr : (s.setArg v).hdr = s.hdr := rfl
@[simp] theorem State.setArg_rlen : (s.setArg v).rlen = s.rlen := rfl
@[simp] theorem State.setArg_allow : (s.setArg v).allow = s.allow := rfl
@[simp] theorem State.setArg_pending : (s.setArg v).pending = s.pending := rfl
@[simp] theorem State.setArg_readData : (s.setArg v).readData = s.readData := rfl

end

section
variable (v : BitVec 256)

@[simp] theorem State.setAllow_ibuf : (s.setAllow v).ibuf = s.ibuf := rfl
@[simp] theorem State.setAllow_ilen : (s.setAllow v).ilen = s.ilen := rfl
@[simp] theorem State.setAllow_iovf : (s.setAllow v).iovf = s.iovf := rfl
@[simp] theorem State.setAllow_obuf : (s.setAllow v).obuf = s.obuf := rfl
@[simp] theorem State.setAllow_olen : (s.setAllow v).olen = s.olen := rfl
@[simp] theorem State.setAllow_orp : (s.setAllow v).orp = s.orp := rfl
@[simp] theorem State.setAllow_st : (s.setAllow v).st = s.st := rfl
@[simp] theorem State.setAllow_cfg : (s.setAllow v).cfg = s.cfg := rfl
@[simp] theorem State.setAllow_thr : (s.setAllow v).thr = s.thr := rfl
@[simp] theorem State.setAllow_arg : (s.setAllow v).arg = s.arg := rfl
@[simp] theorem State.setAllow_metaR : (s.setAllow v).metaR = s.metaR := rfl
@[simp] theorem State.setAllow_mfields : (s.setAllow v).mfields = s.mfields := rfl
@[simp] theorem State.setAllow_csr : (s.setAllow v).csr = s.csr := rfl
@[simp] theorem State.setAllow_hdr : (s.setAllow v).hdr = s.hdr := rfl
@[simp] theorem State.setAllow_rlen : (s.setAllow v).rlen = s.rlen := rfl
@[simp] theorem State.setAllow_allow : (s.setAllow v).allow = v := rfl
@[simp] theorem State.setAllow_pending : (s.setAllow v).pending = s.pending := rfl
@[simp] theorem State.setAllow_readData : (s.setAllow v).readData = s.readData := rfl

end

section
variable (h : Word) (r : BitVec 16) (c m : Byte) (F : MetaFields)

@[simp] theorem State.latch_ibuf : (s.latch h r c m F).ibuf = s.ibuf := rfl
@[simp] theorem State.latch_ilen : (s.latch h r c m F).ilen = s.ilen := rfl
@[simp] theorem State.latch_iovf : (s.latch h r c m F).iovf = s.iovf := rfl
@[simp] theorem State.latch_obuf : (s.latch h r c m F).obuf = s.obuf := rfl
@[simp] theorem State.latch_olen : (s.latch h r c m F).olen = s.olen := rfl
@[simp] theorem State.latch_orp : (s.latch h r c m F).orp = s.orp := rfl
@[simp] theorem State.latch_st : (s.latch h r c m F).st = s.st := rfl
@[simp] theorem State.latch_cfg : (s.latch h r c m F).cfg = s.cfg := rfl
@[simp] theorem State.latch_thr : (s.latch h r c m F).thr = s.thr := rfl
@[simp] theorem State.latch_arg : (s.latch h r c m F).arg = s.arg := rfl
@[simp] theorem State.latch_metaR : (s.latch h r c m F).metaR = m := rfl
@[simp] theorem State.latch_mfields : (s.latch h r c m F).mfields = F := rfl
@[simp] theorem State.latch_csr : (s.latch h r c m F).csr = c := rfl
@[simp] theorem State.latch_hdr : (s.latch h r c m F).hdr = h := rfl
@[simp] theorem State.latch_rlen : (s.latch h r c m F).rlen = r := rfl
@[simp] theorem State.latch_allow : (s.latch h r c m F).allow = s.allow := rfl
@[simp] theorem State.latch_pending : (s.latch h r c m F).pending = s.pending := rfl
@[simp] theorem State.latch_readData : (s.latch h r c m F).readData = s.readData := rfl

end

@[simp] theorem State.consumeIbuf_ibuf : (s.consumeIbuf).ibuf = [] := rfl
@[simp] theorem State.consumeIbuf_ilen : (s.consumeIbuf).ilen = 0 := rfl
@[simp] theorem State.consumeIbuf_iovf : (s.consumeIbuf).iovf = false := rfl
@[simp] theorem State.consumeIbuf_obuf : (s.consumeIbuf).obuf = s.obuf := rfl
@[simp] theorem State.consumeIbuf_olen : (s.consumeIbuf).olen = s.olen := rfl
@[simp] theorem State.consumeIbuf_orp : (s.consumeIbuf).orp = s.orp := rfl
@[simp] theorem State.consumeIbuf_st : (s.consumeIbuf).st = s.st := rfl
@[simp] theorem State.consumeIbuf_cfg : (s.consumeIbuf).cfg = s.cfg := rfl
@[simp] theorem State.consumeIbuf_thr : (s.consumeIbuf).thr = s.thr := rfl
@[simp] theorem State.consumeIbuf_arg : (s.consumeIbuf).arg = s.arg := rfl
@[simp] theorem State.consumeIbuf_metaR : (s.consumeIbuf).metaR = s.metaR := rfl
@[simp] theorem State.consumeIbuf_mfields : (s.consumeIbuf).mfields = s.mfields := rfl
@[simp] theorem State.consumeIbuf_csr : (s.consumeIbuf).csr = s.csr := rfl
@[simp] theorem State.consumeIbuf_hdr : (s.consumeIbuf).hdr = s.hdr := rfl
@[simp] theorem State.consumeIbuf_rlen : (s.consumeIbuf).rlen = s.rlen := rfl
@[simp] theorem State.consumeIbuf_allow : (s.consumeIbuf).allow = s.allow := rfl
@[simp] theorem State.consumeIbuf_pending : (s.consumeIbuf).pending = s.pending := rfl
@[simp] theorem State.consumeIbuf_readData : (s.consumeIbuf).readData = s.readData := rfl

@[simp] theorem State.emptyObuf_ibuf : (s.emptyObuf).ibuf = s.ibuf := rfl
@[simp] theorem State.emptyObuf_ilen : (s.emptyObuf).ilen = s.ilen := rfl
@[simp] theorem State.emptyObuf_iovf : (s.emptyObuf).iovf = s.iovf := rfl
@[simp] theorem State.emptyObuf_obuf : (s.emptyObuf).obuf = [] := rfl
@[simp] theorem State.emptyObuf_olen : (s.emptyObuf).olen = 0 := rfl
@[simp] theorem State.emptyObuf_orp : (s.emptyObuf).orp = 0 := rfl
@[simp] theorem State.emptyObuf_st : (s.emptyObuf).st = s.st := rfl
@[simp] theorem State.emptyObuf_cfg : (s.emptyObuf).cfg = s.cfg := rfl
@[simp] theorem State.emptyObuf_thr : (s.emptyObuf).thr = s.thr := rfl
@[simp] theorem State.emptyObuf_arg : (s.emptyObuf).arg = s.arg := rfl
@[simp] theorem State.emptyObuf_metaR : (s.emptyObuf).metaR = s.metaR := rfl
@[simp] theorem State.emptyObuf_mfields : (s.emptyObuf).mfields = s.mfields := rfl
@[simp] theorem State.emptyObuf_csr : (s.emptyObuf).csr = s.csr := rfl
@[simp] theorem State.emptyObuf_hdr : (s.emptyObuf).hdr = s.hdr := rfl
@[simp] theorem State.emptyObuf_rlen : (s.emptyObuf).rlen = s.rlen := rfl
@[simp] theorem State.emptyObuf_allow : (s.emptyObuf).allow = s.allow := rfl
@[simp] theorem State.emptyObuf_pending : (s.emptyObuf).pending = s.pending := rfl
@[simp] theorem State.emptyObuf_readData : (s.emptyObuf).readData = s.readData := rfl

section
variable (bs : List Byte)

@[simp] theorem State.storeObuf_ibuf : (s.storeObuf bs).ibuf = s.ibuf := rfl
@[simp] theorem State.storeObuf_ilen : (s.storeObuf bs).ilen = s.ilen := rfl
@[simp] theorem State.storeObuf_iovf : (s.storeObuf bs).iovf = s.iovf := rfl
@[simp] theorem State.storeObuf_obuf : (s.storeObuf bs).obuf = ofBytes bs := rfl
@[simp] theorem State.storeObuf_olen : (s.storeObuf bs).olen = BitVec.ofNat 17 bs.length := rfl
@[simp] theorem State.storeObuf_orp : (s.storeObuf bs).orp = 0 := rfl
@[simp] theorem State.storeObuf_st : (s.storeObuf bs).st = s.st := rfl
@[simp] theorem State.storeObuf_cfg : (s.storeObuf bs).cfg = s.cfg := rfl
@[simp] theorem State.storeObuf_thr : (s.storeObuf bs).thr = s.thr := rfl
@[simp] theorem State.storeObuf_arg : (s.storeObuf bs).arg = s.arg := rfl
@[simp] theorem State.storeObuf_metaR : (s.storeObuf bs).metaR = s.metaR := rfl
@[simp] theorem State.storeObuf_mfields : (s.storeObuf bs).mfields = s.mfields := rfl
@[simp] theorem State.storeObuf_csr : (s.storeObuf bs).csr = s.csr := rfl
@[simp] theorem State.storeObuf_hdr : (s.storeObuf bs).hdr = s.hdr := rfl
@[simp] theorem State.storeObuf_rlen : (s.storeObuf bs).rlen = s.rlen := rfl
@[simp] theorem State.storeObuf_allow : (s.storeObuf bs).allow = s.allow := rfl
@[simp] theorem State.storeObuf_pending : (s.storeObuf bs).pending = s.pending := rfl
@[simp] theorem State.storeObuf_readData : (s.storeObuf bs).readData = s.readData := rfl

end

section
variable (b : Byte)

@[simp] theorem State.appendByte_ibuf : (s.appendByte b).ibuf = writeByte s.ibuf s.ilen.toNat b := rfl
@[simp] theorem State.appendByte_ilen : (s.appendByte b).ilen = s.ilen + 1 := rfl
@[simp] theorem State.appendByte_iovf : (s.appendByte b).iovf = s.iovf := rfl
@[simp] theorem State.appendByte_obuf : (s.appendByte b).obuf = s.obuf := rfl
@[simp] theorem State.appendByte_olen : (s.appendByte b).olen = s.olen := rfl
@[simp] theorem State.appendByte_orp : (s.appendByte b).orp = s.orp := rfl
@[simp] theorem State.appendByte_st : (s.appendByte b).st = s.st := rfl
@[simp] theorem State.appendByte_cfg : (s.appendByte b).cfg = s.cfg := rfl
@[simp] theorem State.appendByte_thr : (s.appendByte b).thr = s.thr := rfl
@[simp] theorem State.appendByte_arg : (s.appendByte b).arg = s.arg := rfl
@[simp] theorem State.appendByte_metaR : (s.appendByte b).metaR = s.metaR := rfl
@[simp] theorem State.appendByte_mfields : (s.appendByte b).mfields = s.mfields := rfl
@[simp] theorem State.appendByte_csr : (s.appendByte b).csr = s.csr := rfl
@[simp] theorem State.appendByte_hdr : (s.appendByte b).hdr = s.hdr := rfl
@[simp] theorem State.appendByte_rlen : (s.appendByte b).rlen = s.rlen := rfl
@[simp] theorem State.appendByte_allow : (s.appendByte b).allow = s.allow := rfl
@[simp] theorem State.appendByte_pending : (s.appendByte b).pending = s.pending := rfl
@[simp] theorem State.appendByte_readData : (s.appendByte b).readData = s.readData := rfl

end

@[simp] theorem State.setIovf_ibuf : (s.setIovf).ibuf = s.ibuf := rfl
@[simp] theorem State.setIovf_ilen : (s.setIovf).ilen = s.ilen := rfl
@[simp] theorem State.setIovf_iovf : (s.setIovf).iovf = true := rfl
@[simp] theorem State.setIovf_obuf : (s.setIovf).obuf = s.obuf := rfl
@[simp] theorem State.setIovf_olen : (s.setIovf).olen = s.olen := rfl
@[simp] theorem State.setIovf_orp : (s.setIovf).orp = s.orp := rfl
@[simp] theorem State.setIovf_st : (s.setIovf).st = s.st := rfl
@[simp] theorem State.setIovf_cfg : (s.setIovf).cfg = s.cfg := rfl
@[simp] theorem State.setIovf_thr : (s.setIovf).thr = s.thr := rfl
@[simp] theorem State.setIovf_arg : (s.setIovf).arg = s.arg := rfl
@[simp] theorem State.setIovf_metaR : (s.setIovf).metaR = s.metaR := rfl
@[simp] theorem State.setIovf_mfields : (s.setIovf).mfields = s.mfields := rfl
@[simp] theorem State.setIovf_csr : (s.setIovf).csr = s.csr := rfl
@[simp] theorem State.setIovf_hdr : (s.setIovf).hdr = s.hdr := rfl
@[simp] theorem State.setIovf_rlen : (s.setIovf).rlen = s.rlen := rfl
@[simp] theorem State.setIovf_allow : (s.setIovf).allow = s.allow := rfl
@[simp] theorem State.setIovf_pending : (s.setIovf).pending = s.pending := rfl
@[simp] theorem State.setIovf_readData : (s.setIovf).readData = s.readData := rfl

@[simp] theorem State.advanceOrp_ibuf : (s.advanceOrp).ibuf = s.ibuf := rfl
@[simp] theorem State.advanceOrp_ilen : (s.advanceOrp).ilen = s.ilen := rfl
@[simp] theorem State.advanceOrp_iovf : (s.advanceOrp).iovf = s.iovf := rfl
@[simp] theorem State.advanceOrp_obuf : (s.advanceOrp).obuf = s.obuf := rfl
@[simp] theorem State.advanceOrp_olen : (s.advanceOrp).olen = s.olen := rfl
@[simp] theorem State.advanceOrp_orp : (s.advanceOrp).orp = s.orp + 1 := rfl
@[simp] theorem State.advanceOrp_st : (s.advanceOrp).st = s.st := rfl
@[simp] theorem State.advanceOrp_cfg : (s.advanceOrp).cfg = s.cfg := rfl
@[simp] theorem State.advanceOrp_thr : (s.advanceOrp).thr = s.thr := rfl
@[simp] theorem State.advanceOrp_arg : (s.advanceOrp).arg = s.arg := rfl
@[simp] theorem State.advanceOrp_metaR : (s.advanceOrp).metaR = s.metaR := rfl
@[simp] theorem State.advanceOrp_mfields : (s.advanceOrp).mfields = s.mfields := rfl
@[simp] theorem State.advanceOrp_csr : (s.advanceOrp).csr = s.csr := rfl
@[simp] theorem State.advanceOrp_hdr : (s.advanceOrp).hdr = s.hdr := rfl
@[simp] theorem State.advanceOrp_rlen : (s.advanceOrp).rlen = s.rlen := rfl
@[simp] theorem State.advanceOrp_allow : (s.advanceOrp).allow = s.allow := rfl
@[simp] theorem State.advanceOrp_pending : (s.advanceOrp).pending = s.pending := rfl
@[simp] theorem State.advanceOrp_readData : (s.advanceOrp).readData = s.readData := rfl

section
variable (v : Word)

@[simp] theorem State.returnValue_ibuf : (s.returnValue v).ibuf = s.ibuf := rfl
@[simp] theorem State.returnValue_ilen : (s.returnValue v).ilen = s.ilen := rfl
@[simp] theorem State.returnValue_iovf : (s.returnValue v).iovf = s.iovf := rfl
@[simp] theorem State.returnValue_obuf : (s.returnValue v).obuf = s.obuf := rfl
@[simp] theorem State.returnValue_olen : (s.returnValue v).olen = s.olen := rfl
@[simp] theorem State.returnValue_orp : (s.returnValue v).orp = s.orp := rfl
@[simp] theorem State.returnValue_st : (s.returnValue v).st = s.st := rfl
@[simp] theorem State.returnValue_cfg : (s.returnValue v).cfg = s.cfg := rfl
@[simp] theorem State.returnValue_thr : (s.returnValue v).thr = s.thr := rfl
@[simp] theorem State.returnValue_arg : (s.returnValue v).arg = s.arg := rfl
@[simp] theorem State.returnValue_metaR : (s.returnValue v).metaR = s.metaR := rfl
@[simp] theorem State.returnValue_mfields : (s.returnValue v).mfields = s.mfields := rfl
@[simp] theorem State.returnValue_csr : (s.returnValue v).csr = s.csr := rfl
@[simp] theorem State.returnValue_hdr : (s.returnValue v).hdr = s.hdr := rfl
@[simp] theorem State.returnValue_rlen : (s.returnValue v).rlen = s.rlen := rfl
@[simp] theorem State.returnValue_allow : (s.returnValue v).allow = s.allow := rfl
@[simp] theorem State.returnValue_pending : (s.returnValue v).pending = s.pending := rfl
@[simp] theorem State.returnValue_readData : (s.returnValue v).readData = s.readData ++ [v] := rfl

end

section
variable (q : List Access)

@[simp] theorem State.setPending_ibuf : (s.setPending q).ibuf = s.ibuf := rfl
@[simp] theorem State.setPending_ilen : (s.setPending q).ilen = s.ilen := rfl
@[simp] theorem State.setPending_iovf : (s.setPending q).iovf = s.iovf := rfl
@[simp] theorem State.setPending_obuf : (s.setPending q).obuf = s.obuf := rfl
@[simp] theorem State.setPending_olen : (s.setPending q).olen = s.olen := rfl
@[simp] theorem State.setPending_orp : (s.setPending q).orp = s.orp := rfl
@[simp] theorem State.setPending_st : (s.setPending q).st = s.st := rfl
@[simp] theorem State.setPending_cfg : (s.setPending q).cfg = s.cfg := rfl
@[simp] theorem State.setPending_thr : (s.setPending q).thr = s.thr := rfl
@[simp] theorem State.setPending_arg : (s.setPending q).arg = s.arg := rfl
@[simp] theorem State.setPending_metaR : (s.setPending q).metaR = s.metaR := rfl
@[simp] theorem State.setPending_mfields : (s.setPending q).mfields = s.mfields := rfl
@[simp] theorem State.setPending_csr : (s.setPending q).csr = s.csr := rfl
@[simp] theorem State.setPending_hdr : (s.setPending q).hdr = s.hdr := rfl
@[simp] theorem State.setPending_rlen : (s.setPending q).rlen = s.rlen := rfl
@[simp] theorem State.setPending_allow : (s.setPending q).allow = s.allow := rfl
@[simp] theorem State.setPending_pending : (s.setPending q).pending = q := rfl
@[simp] theorem State.setPending_readData : (s.setPending q).readData = s.readData := rfl

end

@[simp] theorem resetBlock_ibuf : (resetBlock s).ibuf = State.reset.ibuf := rfl
@[simp] theorem resetBlock_ilen : (resetBlock s).ilen = State.reset.ilen := rfl
@[simp] theorem resetBlock_iovf : (resetBlock s).iovf = State.reset.iovf := rfl
@[simp] theorem resetBlock_obuf : (resetBlock s).obuf = State.reset.obuf := rfl
@[simp] theorem resetBlock_olen : (resetBlock s).olen = State.reset.olen := rfl
@[simp] theorem resetBlock_orp : (resetBlock s).orp = State.reset.orp := rfl
@[simp] theorem resetBlock_st : (resetBlock s).st = State.reset.st := rfl
@[simp] theorem resetBlock_cfg : (resetBlock s).cfg = State.reset.cfg := rfl
@[simp] theorem resetBlock_thr : (resetBlock s).thr = State.reset.thr := rfl
@[simp] theorem resetBlock_arg : (resetBlock s).arg = State.reset.arg := rfl
@[simp] theorem resetBlock_metaR : (resetBlock s).metaR = State.reset.metaR := rfl
@[simp] theorem resetBlock_mfields : (resetBlock s).mfields = State.reset.mfields := rfl
@[simp] theorem resetBlock_csr : (resetBlock s).csr = State.reset.csr := rfl
@[simp] theorem resetBlock_hdr : (resetBlock s).hdr = State.reset.hdr := rfl
@[simp] theorem resetBlock_rlen : (resetBlock s).rlen = State.reset.rlen := rfl
@[simp] theorem resetBlock_allow : (resetBlock s).allow = State.reset.allow := rfl
@[simp] theorem resetBlock_pending : (resetBlock s).pending = s.pending := rfl
@[simp] theorem resetBlock_readData : (resetBlock s).readData = s.readData := rfl

end Sys2Proof.Machine
end

