-- ==== Sys2Proof/Laws/Ops.lean ====
section
/-! SUPPORT. For each shared operation, what it can do, said once. -/

namespace Sys2Proof.Machine

open Sys2Proof.Config (Params)

/-- A push stores the byte or sets `IOVF`, and does nothing else (R34). -/
theorem pushByte_cases (P : Params) (b : Byte) (s : State) :
    (s.ilen.toNat < P.bufCap ∧ pushByte P b s = s.appendByte b) ∨
    (P.bufCap ≤ s.ilen.toNat ∧ pushByte P b s = s.setIovf) := by
  by_cases h : s.ilen.toNat < P.bufCap
  · exact .inl ⟨h, by simp [pushByte, h]⟩
  · exact .inr ⟨not_lt.1 h, by simp [pushByte, h]⟩

@[simp] theorem pushBytes_nil (P : Params) (s : State) : pushBytes P [] s = s := rfl

@[simp] theorem pushBytes_cons (P : Params) (b : Byte) (bs : List Byte) (s : State) :
    pushBytes P (b :: bs) s = pushBytes P bs (pushByte P b s) := rfl

theorem pushBytes_append (P : Params) (xs ys : List Byte) (s : State) :
    pushBytes P (xs ++ ys) s = pushBytes P ys (pushBytes P xs s) := by
  simp [pushBytes, List.foldl_append]

/-- A push touches `IBUF`, `ILEN` and `IOVF` only. -/
theorem pushByte_only (P : Params) (b : Byte) (s : State) :
    pushByte P b s =
      { s with ibuf := (pushByte P b s).ibuf, ilen := (pushByte P b s).ilen, iovf := (pushByte P b s).iovf } := by
  rcases pushByte_cases P b s with ⟨-, h⟩ | ⟨-, h⟩ <;> rw [h] <;> rfl

/-- Pushes touch `IBUF`, `ILEN` and `IOVF` only. -/
theorem pushBytes_only (P : Params) (bs : List Byte) (s : State) :
    pushBytes P bs s =
      { s with
        ibuf := (pushBytes P bs s).ibuf, ilen := (pushBytes P bs s).ilen, iovf := (pushBytes P bs s).iovf } := by
  induction bs generalizing s with
  | nil => rfl
  | cons b bs ih =>
    rw [pushBytes_cons, ih (pushByte P b s), pushByte_only P b s]

/-- A property of states that every push keeps, pushes of a byte string keep. -/
theorem pushBytes_keeps (P : Params) (p : State → Prop) (h : ∀ b s, p s → p (pushByte P b s))
    (bs : List Byte) (s : State) (hs : p s) : p (pushBytes P bs s) := by
  induction bs generalizing s with
  | nil => exact hs
  | cons b bs ih => exact ih _ (h b s hs)

/-- A pop returns a byte and advances, or returns `EMPTY` and changes nothing else (R35). -/
theorem popByte_next {s t : State} (h : popByte s = .next t) :
    (s.orp.toNat < s.olen.toNat ∧ ∃ b, readByte s.obuf s.orp.toNat = some b ∧
      t = s.advanceOrp.returnValue (b.setWidth 32)) ∨
    (s.olen.toNat ≤ s.orp.toNat ∧ t = s.returnValue 0x80000000) := by
  simp only [popByte] at h
  split at h
  · next hlt =>
    split at h
    · next b hb => exact .inl ⟨hlt, b, hb, (Host.Outcome.next.inj h).symm⟩
    · cases h
  · next hge => exact .inr ⟨not_lt.1 hge, (Host.Outcome.next.inj h).symm⟩

/-- A pop answers a next state where the bytes below `OLEN` are held. -/
theorem popByte_total {s : State} (h : HoldsExactly s.obuf s.olen.toNat) :
    ∃ t, popByte s = .next t := by
  obtain ⟨bs, hm, hl⟩ := (holdsExactly_iff _ _).1 h
  by_cases hlt : s.orp.toNat < s.olen.toNat
  · have hb : readByte s.obuf s.orp.toNat = some bs[s.orp.toNat] := by
      rw [hm, readByte_ofBytes, List.getElem?_eq_getElem (by omega)]
    exact ⟨_, by simp only [popByte, hlt, if_true, hb]; rfl⟩
  · exact ⟨_, by simp only [popByte, hlt, if_false]; rfl⟩

/-- A buffer operation that answers a next state ran on its operand. -/
theorem withOperand_next {s t : State} {k : List Byte → State} :
    withOperand s k = .next t ↔ ∃ bs, operand s = some bs ∧ t = k bs := by
  simp only [withOperand]
  cases operand s <;> simp [eq_comm]

theorem withOperand_some {s : State} {bs : List Byte} (h : operand s = some bs) (k : List Byte → State) :
    withOperand s k = .next (k bs) := by simp [withOperand, h]

/-- What `raise` writes (R219), and that it writes nothing else. -/
theorem raiseExc_eq (op : BitVec 4) (x : Exc) (s : State) :
    raiseExc op x s =
      { s with
        st := packStatus (raisedStatus op x), obuf := [], olen := 0, orp := 0, ibuf := [], ilen := 0,
        iovf := false } := rfl

/-- A plain register write stores in one register or does nothing (R24 to R42). -/
theorem regStore_cases (n : RegNum) (v : Word) (s : State) :
    regStore n v s = s ∨ regStore n v s = s.setCfg (cfgOf v) ∨
    (∃ w, regStore n v s = s.setThr w) ∨ (∃ w, regStore n v s = s.setArg w) ∨
    (∃ w, regStore n v s = s.setMeta w) ∨ (∃ w, regStore n v s = s.setMfields w) ∨
    (∃ w, regStore n v s = s.setAllow w) := by
  simp only [regStore]
  split
  · exact .inr (.inl rfl)
  · exact .inr (.inr (.inl ⟨_, rfl⟩))
  · exact .inr (.inr (.inr (.inl ⟨_, rfl⟩)))
  · exact .inr (.inr (.inr (.inr (.inl ⟨_, rfl⟩))))
  · exact .inr (.inr (.inr (.inr (.inr (.inl ⟨_, rfl⟩)))))
  · split
    · exact .inr (.inr (.inr (.inr (.inr (.inr ⟨_, rfl⟩)))))
    · exact .inl rfl

/-- What `ENC` can do (R152): `Overrun`, or the frame of its operand. -/
theorem encOp_next {P : Params} {s t : State} (h : encOp P s = .next t) :
    ((s.iovf = true ∨ P.payloadMax < s.ilen.toNat) ∧ t = raiseExc 3 .overrun s) ∨
    (s.iovf = false ∧ s.ilen.toNat ≤ P.payloadMax ∧ ∃ bs, operand s = some bs ∧ t = encWrites P s bs) := by
  simp only [encOp] at h
  split at h
  · next hc => exact .inl ⟨by simpa using hc, (Host.Outcome.next.inj h).symm⟩
  · next hc =>
    simp only [Bool.or_eq_true, decide_eq_true_eq, not_or, Bool.not_eq_true, not_lt] at hc
    exact .inr ⟨hc.1, hc.2, withOperand_next.1 h⟩

/-- What `DEC` can do (R175): `Overrun`, or what its operand gives. -/
theorem decOp_next {P : Params} {s t : State} (h : decOp P s = .next t) :
    (s.iovf = true ∧ t = raiseExc 4 .overrun s) ∨
    (s.iovf = false ∧ ∃ bs, operand s = some bs ∧ t = decodeOperand P s bs) := by
  simp only [decOp] at h
  split at h
  · next hc => exact .inl ⟨hc, (Host.Outcome.next.inj h).symm⟩
  · next hc => exact .inr ⟨by simpa using hc, withOperand_next.1 h⟩

/-- The two ways a `DEC` on its operand ends (R175). -/
theorem decodeOperand_cases (P : Params) (s : State) (bs : List Byte) :
    (frameDecode P bs (decodeConfig s) = none ∧ decodeOperand P s bs = raiseExc 4 .malformed s) ∨
    (∃ r, frameDecode P bs (decodeConfig s) = some r ∧ decodeOperand P s bs = decWrites s r) := by
  cases h : frameDecode P bs (decodeConfig s) with
  | none => exact .inl ⟨rfl, by simp [decodeOperand, h]⟩
  | some r => exact .inr ⟨r, rfl, by simp [decodeOperand, h]⟩

/-- What one step can do: nothing pending, a row of the opcode table, or another access. -/
theorem step_cases (s : State) :
    (s.pending = [] ∧ step s = .next s) ∨
    (∃ a rest, s.pending = a :: rest ∧
      ((∃ i, Sys2Proof.decode a = .ok i ∧ step s = exec i (s.setPending rest)) ∨
       (∃ e, Sys2Proof.decode a = .error e ∧ step s = hostAccess a (s.setPending rest)))) := by
  cases hp : s.pending with
  | nil => exact .inl ⟨rfl, by simp [step, hp]⟩
  | cons a rest =>
    refine .inr ⟨a, rest, rfl, ?_⟩
    cases hd : Sys2Proof.decode a with
    | ok i => exact .inl ⟨i, rfl, by simp [step, hp, hd]⟩
    | error e => exact .inr ⟨e, rfl, by simp [step, hp, hd]⟩

end Sys2Proof.Machine
end

