-- ==== Sys2Proof/Laws/PerInstr.lean ====
section
/-! SUPPORT. A family of statements made per instruction: the decoder rejects no well-formed
instruction. -/

namespace Sys2Proof.Laws.EncodeAccepted

open Sys2Proof

/-- The decoder accepts the encoding of the instruction. -/
def Statement (i : Instr) : Prop := i.wellFormed = true → ∃ j, decode (encode i) = .ok j

theorem nop : Statement .nop := fun _ => ⟨_, rfl⟩
theorem clr : Statement .clr := fun _ => ⟨_, rfl⟩
theorem csum : Statement .csum := fun _ => ⟨_, rfl⟩
theorem enc : Statement .enc := fun _ => ⟨_, rfl⟩
theorem dec : Statement .dec := fun _ => ⟨_, rfl⟩
theorem mpack : Statement .mpack := fun _ => ⟨_, rfl⟩
theorem munpk : Statement .munpk := fun _ => ⟨_, rfl⟩
theorem srst : Statement .srst := fun _ => ⟨_, rfl⟩
theorem illegalCmd (v : Word) : Statement (.illegalCmd v) := fun _ => ⟨_, rfl⟩

/-- A frame of at most 65535 payload bytes is accepted (R102). -/
theorem decodeFrame_frameBytes (k s : Byte) (m : MetaFields) (c : Byte) (len : BitVec 16)
    (payload : List Byte) (h : payload.length ≤ 65535) :
    ∃ j, decodeFrame (frameBytes k s m c len payload) = .ok j :=
  ⟨_, if_neg (Nat.not_lt.2 h)⟩

theorem frame (k s : Byte) (m : MetaFields) (c : Byte) (len : BitVec 16) (payload : List Byte) :
    Statement (.frame k s m c len payload) := fun h =>
  decodeFrame_frameBytes k s m c len payload (by simp [Instr.wellFormed] at h; exact h.2)

theorem frameBuiltByEnc (k s : Byte) (i : BitVec 4) (g : Bool) (c : Byte) (len : BitVec 16)
    (payload : List Byte) : Statement (.frameBuiltByEnc k s i g c len payload) := fun h =>
  decodeFrame_frameBytes k s (Machine.builtFields i g) c len payload (by simpa [Instr.wellFormed] using h)

theorem metadata (m : MetaFields) : Statement (.metadata m) := fun _ => ⟨_, rfl⟩
theorem metadataBuiltByEnc (i : BitVec 4) (g : Bool) : Statement (.metadataBuiltByEnc i g) :=
  fun _ => ⟨_, rfl⟩
theorem badgeInfoRequest : Statement .badgeInfoRequest := fun _ => ⟨_, rfl⟩
theorem badgeInfoResponse : Statement .badgeInfoResponse := fun _ => ⟨_, rfl⟩
theorem bindRequest : Statement .bindRequest := fun _ => ⟨_, rfl⟩
theorem bindResponse : Statement .bindResponse := fun _ => ⟨_, rfl⟩
theorem unbindRequest : Statement .unbindRequest := fun _ => ⟨_, rfl⟩
theorem unbindResponse : Statement .unbindResponse := fun _ => ⟨_, rfl⟩
theorem unknownCommand (c : Byte) : Statement (.unknownCommand c) := fun _ => ⟨_, rfl⟩
theorem dinWrite (v : Word) : Statement (.dinWrite v) := fun _ => ⟨_, rfl⟩
theorem doutRead : Statement .doutRead := fun _ => ⟨_, rfl⟩

end Sys2Proof.Laws.EncodeAccepted
end

