-- ==== Sys2Proof/Tests/Slice0.lean ====
section
/-! SUPPORT. Tests. Expected values are the spec's: `V<n>` is a vector of `95_test_vectors.md`, with
`MARK = 0x5A` where a vector writes `MARK`. Theorems `test_w_…` show that the hypotheses of a statement
can be met, at boundary values where it has clauses. -/

namespace Sys2Proof.Tests

open Sys2Proof Sys2Proof.Machine

/-! ## Helpers -/

/-- The block after reset with `bs` pushed into `IBUF`. -/
def withInput (bs : List Byte) : State :=
  { State.reset with ibuf := ofBytes bs, ilen := BitVec.ofNat 17 bs.length }

/-- The block after reset with the accesses `q` issued. -/
def issue (q : List Access) : State := { State.reset with pending := q }

/-- The state after a step that answers a next state. -/
def after (r : Result) : State :=
  match r with
  | .next s => s
  | _ => { State.reset with readData := [0xDEADBEEF] }

/-- The values the host has read after one step on the access `a` from `s`. -/
def reads (s : State) (a : Access) : List Word := (after (step { s with pending := [a] })).readData

/-- An instance whose `MARK` is `0x5A`. -/
def inst : Config.Params := { mark := 0x5A, payloadMax := 65535, malformedMax := 5, longLimit := 20 }

/-! ## WellFormed: a term each check refuses -/

theorem test_wf_illegal_cmd_is_not_an_operation : (Instr.illegalCmd 7).wellFormed = false := by decide

theorem test_wf_frame_is_not_the_narrow_pattern :
    (Instr.frame 0x5A 0 (builtFields 12 false) 0xC6 0 []).wellFormed = false := by decide

theorem test_wf_frame_payload_bound :
    (Instr.frame 0x5A 0 (metaUnpack 0x60) 0xC7 0 (List.replicate 65536 0)).wellFormed = false := by
  simp only [Instr.wellFormed, List.length_replicate]; decide

theorem test_wf_built_frame_payload_bound :
    (Instr.frameBuiltByEnc 0x5A 0 12 false 0xC6 0 (List.replicate 65536 0)).wellFormed = false := by
  simp only [Instr.wellFormed, List.length_replicate]; decide

theorem test_wf_metadata_is_not_the_narrow_pattern : (Instr.metadata (metaUnpack 0x62)).wellFormed = false := by
  decide

theorem test_wf_unknown_command_is_not_known : (Instr.unknownCommand 0xC6).wellFormed = false := by decide

/-! ## Decoding: a word of every row, written out from R100, R102, R104, R105, R108, R34, R35 -/

theorem test_decode_nop : decode (.write 0 0b00000) = .ok .nop := by decide
theorem test_decode_clr : decode (.write 0 0b00001) = .ok .clr := by decide
theorem test_decode_csum : decode (.write 0 0b00010) = .ok .csum := by decide
theorem test_decode_enc : decode (.write 0 0b00011) = .ok .enc := by decide
theorem test_decode_dec : decode (.write 0 0b00100) = .ok .dec := by decide
theorem test_decode_mpack : decode (.write 0 0b00101) = .ok .mpack := by decide
theorem test_decode_munpk : decode (.write 0 0b00110) = .ok .munpk := by decide
theorem test_decode_srst : decode (.write 0 0b00111) = .ok .srst := by decide
theorem test_decode_illegal_cmd : decode (.write 0 0x00000013) = .ok (.illegalCmd 0x13) := by decide

/-- The frame of V69: metadata `0x81 = 1 0000 0 0 1`. -/
theorem test_decode_frame :
    decode (.push .frame [0x5A, 0x4A, 0b10000001, 0xC7, 0x01, 0x00, 0x01])
      = .ok (.frame 0x5A 0x4A
          { flag1 := true, packetId := 0, longFlag := false, expectResponse := false, flag4 := true }
          0xC7 1 [0x01]) := by decide

/-- The header of V42: metadata `0x06 = 0 0000 1 1 0`, length `0x0100`. -/
theorem test_decode_built_frame :
    decode (.push .frame [0x5A, 0x08, 0b00000110, 0x01, 0x00, 0x01])
      = .ok (.frameBuiltByEnc 0x5A 0x08 0 true 0x01 256 []) := by decide

/-- V28 with `flag1 = 1` and `flag4 = 1`: `0xAF = 1 0101 1 1 1`. -/
theorem test_decode_metadata :
    decode (.push .metadata [0b10101111])
      = .ok (.metadata
          { flag1 := true, packetId := 5, longFlag := true, expectResponse := true, flag4 := true }) := by
  decide

theorem test_decode_built_metadata :
    decode (.push .metadata [0b01111110]) = .ok (.metadataBuiltByEnc 15 true) := by decide
theorem test_decode_badge_info_request : decode (.push .command [0xC6]) = .ok .badgeInfoRequest := by decide
theorem test_decode_badge_info_response : decode (.push .command [0xC7]) = .ok .badgeInfoResponse := by decide
theorem test_decode_bind_request : decode (.push .command [0x60]) = .ok .bindRequest := by decide
theorem test_decode_bind_response : decode (.push .command [0x61]) = .ok .bindResponse := by decide
theorem test_decode_unbind_request : decode (.push .command [0x62]) = .ok .unbindRequest := by decide
theorem test_decode_unbind_response : decode (.push .command [0xFF]) = .ok .unbindResponse := by decide
theorem test_decode_unknown_command : decode (.push .command [0x44]) = .ok (.unknownCommand 0x44) := by decide
theorem test_decode_din_write : decode (.write 0b01000 0x1FF) = .ok (.dinWrite 0x1FF) := by decide
theorem test_decode_dout_read : decode (.read 0b01001) = .ok .doutRead := by decide

/-- Rejections, each by its name (R102, R104, R108, R252). -/
theorem test_decode_rejects_by_name :
    decode (.push .frame [1, 2, 3, 4, 5]) = .error .frameTooShort ∧
    decode (.push .metadata []) = .error .notOneByte ∧ decode (.push .command [1, 2]) = .error .notOneByte ∧
    decode .rst = .error .notAnAccess ∧ decode (.read 1) = .error .plainRegister ∧
    decode (.write 31 0) = .error .plainRegister := by decide

/-- A table word: bit 0 is bit 0 of its first byte, so the header of V30 reads `0001C6622A5A`. -/
theorem test_table_words :
    decodeTableWord 48 0x0001C6622A5A = some (.frameBuiltByEnc 0x5A 0x2A 12 false 0xC6 1 []) ∧
    decodeTableWord 32 6 = some .munpk ∧ decodeTableWord 8 0xFF = some .unbindResponse ∧
    decodeTableWord 8 8 = some (.dinWrite 0) ∧ decodeTableWord 8 9 = some .doutRead ∧
    decodeTableWord 8 0x02 = some (.metadataBuiltByEnc 0 false) := by decide

/-! ## Checksum, metadata and frames as pure functions -/

/-- V1, V4, V5, V6, V7, V8, V9, V10, V12. -/
theorem test_checksum_vectors :
    checksum [] = 0 ∧ checksum [0x62, 0xC6, 0x01, 0x00, 0x01] = 0x2A ∧ checksum [0x7F, 0x01] = 0x80 ∧
    checksum [0x80, 0x80] = 0 ∧ checksum [0xFF, 0x01] = 0 ∧ checksum [0xFF, 0xFF, 0xFF] = 0xFD ∧
    checksum [0x7F, 0x7F, 0x7F] = 0x7D ∧ checksum [0x80, 0x7F] = 0xFF ∧ checksum [0x64, 0x64, 0x64] = 0x2C := by
  decide

set_option maxRecDepth 2000 in
/-- V38 and V39: the frames of 20 and of 21 bytes. -/
theorem test_long_flag_boundary :
    frameEncode inst 0x0F 0xAA [0, 1, 2, 3, 4, 5, 6, 7, 8, 9, 10, 11, 12, 13]
      = [0x5A, 0x8D, 0x7A, 0xAA, 0x0E, 0, 0, 1, 2, 3, 4, 5, 6, 7, 8, 9, 10, 11, 12, 13] ∧
    frameEncode inst 0x0F 0xAA [0, 1, 2, 3, 4, 5, 6, 7, 8, 9, 10, 11, 12, 13, 14]
      = [0x5A, 0xA0, 0x7E, 0xAA, 0x0F, 0, 0, 1, 2, 3, 4, 5, 6, 7, 8, 9, 10, 11, 12, 13, 14] := by decide

/-! ## One step of each operation -/

/-- V81: `NOP` does not write `STATUS`. -/
theorem test_nop_keeps_status : (after (exec .nop { State.reset with st := 3 })).st = 3 := by decide

/-- V82. -/
theorem test_clr : let t := after (exec .clr { withInput [1, 2, 3] with iovf := true, st := 0x00010124 })
    (t.ilen, t.iovf, t.olen, statusView t) = (0, false, 0, 0x00000001) := by decide

/-- V4. -/
theorem test_csum : let t := after (exec .csum (withInput [0x62, 0xC6, 0x01, 0x00, 0x01]))
    (t.csr, statusView t, t.ilen) = (0x2A, 0x00000002, 0) := by decide

/-- R226: an operand that lost bytes; `OBUF` is emptied, `CSR` kept. -/
theorem test_csum_overrun :
    let t := after (exec .csum { withInput [1] with iovf := true, csr := 7, obuf := [(0, 9)], olen := 1 })
    (t.csr, statusView t, t.olen, t.ilen) = (7, 0x00200622, 0, 0) := by decide

/-- V30. -/
theorem test_enc : let t := after (encOp inst { withInput [0x01] with arg := 0xC60C })
    (t.obuf.map Prod.snd, t.olen, t.hdr) = ([0x5A, 0x2A, 0x62, 0xC6, 0x01, 0x00, 0x01], 7, 0xC6622A5A) ∧
    (t.csr, t.metaR, mfieldsView t.mfields, t.rlen) = (0x2A, 0x62, 0x0000020C, 1) ∧
    (statusView t, t.ilen, t.orp) = (0x00000003, 0, 0) := by decide

/-- V32: the id is cut to four bits, here in the operation of the table (`MARK` open). -/
theorem test_enc_cuts_the_id : let t := after (exec .enc { withInput [0x01] with arg := 0xC6FC })
    (t.csr, t.metaR, readByte t.obuf 2, statusView t) = (0x2A, 0x62, some 0x62, 0x00000003) := by decide

/-- V68: a mark other than the instance's, reset configuration. -/
theorem test_dec : let t := after (exec .dec (withInput [0x5A, 0x29, 0x60, 0xC7, 0x01, 0x00, 0x01]))
    (statusView t, t.obuf, t.olen, t.hdr) = (0x00000004, [(0, 0x01)], 1, 0xC760295A) ∧
    (t.rlen, t.csr, t.metaR, mfieldsView t.mfields, t.ilen) = (1, 0x29, 0x60, 0x0000000C, 0) := by decide

/-- V65, V66, V67a, V67b: one frame with every fault; the configuration picks the one reported. -/
theorem test_dec_priority :
    let f : BitVec 4 → Word := fun c => statusView (after (exec .dec
      { withInput [0x5A, 0xCC, 0x62, 0x61, 0x05, 0x00, 0x01] with cfg := c, allow := setAllowWord 0 6 0x80 }))
    (f 0xE, f 0xC, f 0x8, f 0x0) = (0x001E0224, 0x001E0424, 0x001E0524, 0x000E0014) := by decide

/-- V20. -/
theorem test_mpack : let t := after (exec .mpack { State.reset with mfields := mfieldsOf 0x0000020C })
    (t.metaR, statusView t) = (0x62, 0x00000005) := by decide

/-- V23, V24: the two flags of unknown meaning go to the two ends of the byte. -/
theorem test_mpack_flags :
    (after (exec .mpack { State.reset with mfields := mfieldsOf 0x00000400 })).metaR = 0x80 ∧
    (after (exec .mpack { State.reset with mfields := mfieldsOf 0x00000800 })).metaR = 0x01 := by decide

/-- V28. -/
theorem test_munpk : let t := after (exec .munpk { State.reset with metaR := 0x2E })
    (mfieldsView t.mfields, statusView t) = (0x00000305, 0x00000006) := by decide

/-- V83. -/
theorem test_srst : let t := after (exec .srst
      { withInput [9] with thr := 100, cfg := 0xA, allow := setAllowWord 0 6 0x80, arg := 0x1234, st := 7 })
    t = State.reset := by decide

/-- V85, V86. -/
theorem test_illegal_cmd :
    statusView (after (exec (.illegalCmd 0x00000013) State.reset)) = 0x00400723 ∧
    statusView (after (exec (.illegalCmd 0x80000004) State.reset)) = 0x00400724 := by decide

/-- V88: the operand stays. -/
theorem test_illegal_cmd_keeps_input : let s := withInput [0x62, 0xC6, 0x01, 0x00, 0x01]
    exec (.illegalCmd 8) s = .next { s with st := 0x00400728 } := by rfl

/-- V96: only `v[7:0]` is pushed. -/
theorem test_din_write : let t := after (exec (.dinWrite 0x000001FF) State.reset)
    (t.ibuf, t.ilen, t.iovf) = ([(0, 0xFF)], 1, false) := by decide

/-- R34 at `BUF_CAP`: the byte is dropped, and `STATUS[24]` shows it. -/
theorem test_din_write_full : let t := after (exec (.dinWrite 1) { State.reset with ilen := 65541 })
    (t.ilen, t.ibuf, statusView t) = (65541, [], 0x01000000) := by decide

/-- V82, R35: a byte, then `EMPTY`. -/
theorem test_dout_read :
    let s := { State.reset with obuf := ofBytes [0x80], olen := 1 }
    (reads s (.read 9), (after (exec .doutRead s)).orp) = ([0x00000080], 1) ∧
    reads { s with orp := 1 } (.read 9) = [0x80000000] := by decide

theorem test_frame : (after (exec (.frame 0x5A 0x4A (metaUnpack 0x81) 0xC7 0x012C [9]) State.reset)).ibuf
    = ofBytes [0x5A, 0x4A, 0x81, 0xC7, 0x2C, 0x01, 9] := by decide
theorem test_built_frame : (after (exec (.frameBuiltByEnc 0x5A 0x2A 12 false 0xC6 1 [1]) State.reset)).ibuf
    = ofBytes [0x5A, 0x2A, 0x62, 0xC6, 0x01, 0x00, 0x01] := by decide
theorem test_metadata : (after (exec (.metadata (metaUnpack 0x81)) (withInput [5]))).ibuf = ofBytes [5, 0x81] := by
  decide
theorem test_built_metadata : (after (exec (.metadataBuiltByEnc 12 false) State.reset)).ibuf = ofBytes [0x62] := by
  decide
theorem test_badge_info_request : (after (exec .badgeInfoRequest State.reset)).ibuf = ofBytes [0xC6] := by decide
theorem test_badge_info_response : (after (exec .badgeInfoResponse State.reset)).ibuf = ofBytes [0xC7] := by decide
theorem test_bind_request : (after (exec .bindRequest State.reset)).ibuf = ofBytes [0x60] := by decide
theorem test_bind_response : (after (exec .bindResponse State.reset)).ibuf = ofBytes [0x61] := by decide
theorem test_unbind_request : (after (exec .unbindRequest State.reset)).ibuf = ofBytes [0x62] := by decide
theorem test_unbind_response : (after (exec .unbindResponse State.reset)).ibuf = ofBytes [0xFF] := by decide
theorem test_unknown_command : (after (exec (.unknownCommand 0x44) State.reset)).ibuf = ofBytes [0x44] := by decide

/-! ## Plain register accesses -/

/-- V89. -/
theorem test_reads_from_reset :
    reads State.reset (.read 9) = [0x80000000] ∧
    ∀ n ∈ ([0, 8, 15, 24, 31] : List RegNum), reads State.reset (.read n) = [0] := by decide

/-- Every register at its number (R24). -/
theorem test_register_numbers :
    let s := { withInput [1, 2] with
      obuf := ofBytes [1, 2, 3], olen := 3, orp := 1, st := 5, thr := 0x1FFFF, arg := 0xABCD, metaR := 0x62,
      mfields := mfieldsOf 0xF0F, csr := 0x2A, hdr := 0x12345678, rlen := 0xFEDC, allow := setAllowWord 0 7 0x80000001 }
    ([1, 2, 3, 4, 5, 6, 7, 10, 11, 12, 13, 14, 16, 23] : List RegNum).map (fun n => reads s (.read n)) =
      [[5], [5], [0x1FFFF], [0xABCD], [0x62], [0xF0F], [0x2A], [2], [3], [1], [0x12345678], [0xFEDC], [0],
        [0x80000001]] := by decide

/-- V90: writes that are ignored. -/
theorem test_ignored_writes :
    ∀ n ∈ ([1, 7, 9, 10, 11, 12, 13, 14, 15, 24, 31] : List RegNum),
      step (issue [.write n 0xFFFFFFFF]) = .next State.reset := by
  simp only [List.forall_mem_cons, List.not_mem_nil, false_implies, implies_true, and_true]
  exact ⟨rfl, rfl, rfl, rfl, rfl, rfl, rfl, rfl, rfl, rfl, rfl⟩

/-- V91 to V95. -/
theorem test_stored_parts :
    let w : RegNum → Word → List Word := fun n v =>
      reads { after (step (issue [.write n v])) with readData := [] } (.read n)
    w 2 3 = [2] ∧ w 2 0xFFFFFFFF = [0xE] ∧ w 3 0xFFFFFFFF = [0x1FFFF] ∧ w 4 0xFFFFFFFF = [0xFFFF] ∧
    w 23 0xFFFFFFFF = [0xFFFFFFFF] ∧ w 16 0x80000001 = [0x80000001] ∧ w 5 0x162 = [0x62] ∧
    w 6 0xFFFFFFFF = [0xF0F] := by decide

/-- R250, R43. -/
theorem test_reset_input :
    let t := after (step { withInput [1] with pending := [.rst], st := 0x00080424, cfg := 0 })
    t = State.reset ∧ (errO t, warnO t, ackreqO t) = (false, false, false) := by decide

/-- R71, R110: a byte string in no wire format is still pushed. -/
theorem test_push_without_format :
    (after (step (issue [.push .frame [7, 8]]))).ibuf = ofBytes [7, 8] := by decide

/-- The interface the host runs: an instruction placed as the next access is the one performed. -/
theorem test_with_fetch_word :
    statusView (after (step (State.reset.withFetchWord 32 9))) = 0x00400729 ∧
    (after (step (State.reset.withFetchWord 8 0xC6))).ibuf = ofBytes [0xC6] := by decide

/-! ## The hypotheses of the statements can be met -/

/-- Well-formed terms, the longest frame among them. -/
theorem test_w_DecodeEncodeRoundTrip :
    (Instr.frame 0x5A 0 (metaUnpack 0x60) 0xC7 0 (List.replicate 65535 0)).wellFormed = true ∧
    (Instr.frameBuiltByEnc 0x5A 0 12 false 0xC6 0 (List.replicate 65535 0)).wellFormed = true ∧
    (Instr.illegalCmd 8).wellFormed = true ∧ (Instr.metadata (metaUnpack 0x81)).wellFormed = true ∧
    (Instr.unknownCommand 0xC5).wellFormed = true ∧ Instr.enc.wellFormed = true := by
  refine ⟨?_, ?_, by decide, by decide, by decide, rfl⟩
  · simp only [Instr.wellFormed, List.length_replicate]; decide
  · simp only [Instr.wellFormed, List.length_replicate]; decide

theorem test_w_EncodeDecodeRoundTrip :
    decode (.push .frame [0x5A, 0x2A, 0x62, 0xC6, 0x01, 0x00, 0x01])
      = .ok (.frameBuiltByEnc 0x5A 0x2A 12 false 0xC6 1 [1]) := by decide

theorem test_w_OnlyEightCmdValuesNameOperations :
    (7 : Word).toNat < 8 ∧ 8 ≤ (8 : Word).toNat ∧ 8 ≤ (0xFFFFFFFF : Word).toNat := by decide

theorem test_w_StepRunsDecodedInstruction :
    (issue [.write 0 3, .read 1]).pending = .write 0 3 :: [.read 1] ∧
    decode (.write 0 3) = .ok .enc ∧ Instr.enc.wellFormed = true := by decide

theorem test_w_QuiescentWithoutAccess : State.reset.pending = [] := rfl

theorem test_w_RegisterReadsReturnTheRegister :
    ∀ n ∈ ([0, 1, 2, 3, 4, 5, 6, 7, 8, 10, 11, 12, 13, 14, 15, 16, 23, 24, 31] : List RegNum),
      (issue [.read n]).pending = .read n :: [] ∧ n ≠ 9 := by decide

theorem test_w_CfgWriteStoresLegalPolicy : (issue [.write 2 3]).pending = .write 2 3 :: [] := rfl

theorem test_w_OperandRegisterWrites :
    ∀ n ∈ ([3, 4, 5, 6] : List RegNum), (issue [.write n 0xFFFFFFFF]).pending = .write n 0xFFFFFFFF :: [] := by
  decide

theorem test_w_AllowWriteSetsItsBits :
    ∀ n ∈ ([16, 23] : List RegNum), 16 ≤ n.toNat ∧ n.toNat ≤ 23 ∧ (issue [.write n 5]).pending = .write n 5 :: [] := by
  decide

theorem test_w_ReadOnlyAndReservedWritesIgnored :
    ∀ n ∈ ([1, 7, 9, 14, 15, 24, 31] : List RegNum),
      n.toNat ∈ [1, 7, 9, 10, 11, 12, 13, 14, 15, 24, 25, 26, 27, 28, 29, 30, 31] ∧
      (issue [.write n 5]).pending = .write n 5 :: [] := by decide

theorem test_w_SrstEqualsReset : (issue [.rst, .read 1]).pending = .rst :: [.read 1] := rfl

theorem test_w_IllegalCmdWritesStatusOnly : 8 ≤ (8 : Word).toNat := by decide

theorem test_w_CsumOperation :
    { withInput [1] with iovf := true }.iovf = true ∧
    (withInput []).iovf = false ∧ operand (withInput []) = some [] ∧
    (withInput [0x62, 0xC6]).iovf = false ∧ operand (withInput [0x62, 0xC6]) = some [0x62, 0xC6] := by decide

/-- A full buffer is an operand. -/
theorem operand_withInput (bs : List Byte) (h : bs.length < 131072) : operand (withInput bs) = some bs := by
  have e : (BitVec.ofNat 17 bs.length).toNat = bs.length := by
    rw [BitVec.toNat_ofNat, Nat.mod_eq_of_lt (by omega)]
  simp only [operand, withInput, e, readBytes_ofBytes]

/-- V4 and V14: a permutation that is not the identity. -/
theorem test_w_ChecksumLaws :
    ([0x62, 0xC6, 0x01, 0x00, 0x01] : List Byte).Perm [0x01, 0x00, 0xC6, 0x62, 0x01] := by decide

theorem test_w_BuiltFrameProperties :
    ([] : List Byte).length ≤ 65535 ∧ (List.replicate 65535 (0 : Byte)).length ≤ 65535 := by
  rw [List.length_replicate]; decide

/-- The operand that lost bytes, the operand one byte too long, and the longest operand that is framed. -/
theorem test_w_EncOperation :
    { withInput [1] with iovf := true }.iovf = true ∧
    (65535 < { State.reset with ilen := 65536 }.ilen.toNat) ∧
    (withInput (List.replicate 65535 0)).iovf = false ∧
    (withInput (List.replicate 65535 0)).ilen.toNat ≤ 65535 ∧
    operand (withInput (List.replicate 65535 0)) = some (List.replicate 65535 0) := by
  refine ⟨by decide, by decide, rfl, ?_, operand_withInput _ (by rw [List.length_replicate]; decide)⟩
  simp only [withInput, List.length_replicate]; decide

theorem test_w_DecWithoutResult :
    { withInput [1] with iovf := true }.iovf = true ∧
    (withInput [1, 2, 3, 4, 5]).iovf = false ∧ operand (withInput [1, 2, 3, 4, 5]) = some [1, 2, 3, 4, 5] ∧
    ([1, 2, 3, 4, 5] : List Byte).length ≤ 5 ∧
    operand (withInput [1, 2, 3, 4, 5, 6]) = some [1, 2, 3, 4, 5, 6] ∧
    ([1, 2, 3, 4, 5, 6] : List Byte).length ≤ { inst with malformedMax := 6 }.malformedMax := by decide

theorem test_w_DecDeliversFieldsAndOutcome :
    (withInput [0x5A, 0x28, 0x28, 0, 0, 0]).iovf = false ∧
    operand (withInput [0x5A, 0x28, 0x28, 0, 0, 0]) = some (0x5A :: 0x28 :: 0x28 :: 0 :: 0 :: 0 :: []) := by decide

/-- V59: the checksum mismatch of V56 under `STRICT`; then under `THRESHOLD` on its 7 bytes with
`THR = 6` and `THR = 7`. -/
theorem test_w_MismatchPolicy :
    let bs : List Byte := [0x5A, 0x2A, 0x60, 0xC7, 0x01, 0x00, 0x01]
    let r := fun (c : BitVec 4) (t : BitVec 17) =>
      (frameDecode inst bs (decodeConfig { State.reset with cfg := c, thr := t })).map
        fun r => (r.csmis, r.err, r.sev)
    r 6 20 = some (true, some .checksumMismatch, .error) ∧
    r 5 6 = some (true, some .checksumMismatch, .error) ∧ bs.length = 6 + 1 ∧
    r 5 7 = some (true, none, .warn) ∧ bs.length = 7 := by decide

/-- V66 and V67a: mismatches that are not hard, with an acknowledgement request that is fatal, and with a
command that is not allowed. -/
theorem test_w_MismatchPolicy_other_exceptions :
    let bs : List Byte := [0x5A, 0xCC, 0x62, 0x61, 0x05, 0x00, 0x01]
    let r := fun c => (frameDecode inst bs (decodeConfig { State.reset with cfg := c })).map
      fun r => (r.lenmis, r.ackreq, r.unexp, r.err)
    r 0xC = some (true, true, true, some .unhandledAckRequest) ∧
    r 0x8 = some (true, true, true, some .unexpectedCommand) := by decide

theorem test_w_DecodeOfBuiltFrame :
    inst.Legal ∧ { inst with malformedMax := 6, payloadMax := 250 }.Legal ∧
    ([] : List Byte).length ≤ inst.payloadMax ∧ inst.malformedMax = 5 ∧
    (List.replicate 250 (1 : Byte)).length ≤ 250 ∧ 1 ≤ (List.replicate 250 (1 : Byte)).length := by
  rw [List.length_replicate]; decide

/-- The operand of `EncThenDecReturnsPayload`, the empty and the longest. -/
theorem test_w_EncThenDecReturnsPayload :
    (withInput []).iovf = false ∧ (withInput []).ilen.toNat ≤ 65535 ∧ operand (withInput []) = some [] ∧
    operand (withInput (List.replicate 65535 0)) = some (List.replicate 65535 0) :=
  ⟨rfl, by decide, by decide, test_w_EncOperation.2.2.2.2⟩

theorem test_w_DinPushesOrDrops :
    { State.reset with ilen := 65540 }.ilen.toNat < 65541 ∧ 65541 ≤ { State.reset with ilen := 65541 }.ilen.toNat ∧
    (issue [.read 8]).pending = .read 8 :: [] := by decide

theorem test_w_DinStoresOneByte :
    (∃ t, exec (.dinWrite 1) (withInput [7]) = .next t) ∧ (withInput [7]).ilen.toNat < 65541 ∧
    (withInput [7]).ibuf.wf = true ∧ (0 ≠ (withInput [7]).ilen.toNat) ∧
    65541 ≤ { State.reset with ilen := 65541 }.ilen.toNat := ⟨⟨_, rfl⟩, by decide⟩

theorem test_w_DoutPopsOrIsEmpty :
    let s := { State.reset with obuf := ofBytes [4, 6], olen := 2 }
    (s.orp.toNat < s.olen.toNat ∧ readByte s.obuf s.orp.toNat = some 4) ∧
    ({ s with orp := 1 }.orp.toNat < 2 ∧ readByte s.obuf 1 = some 6) ∧
    s.olen.toNat ≤ { s with orp := 2 }.orp.toNat ∧ (issue [.write 9 1]).pending = .write 9 1 :: [] := by decide

theorem test_w_UnheldByteFaults :
    let s := { State.reset with ilen := 1, olen := 1 }
    s.orp.toNat < s.olen.toNat ∧ readByte s.obuf s.orp.toNat = none ∧ s.iovf = false ∧ operand s = none ∧
    s.ilen.toNat ≤ 65535 := by decide

theorem test_w_LoadedBytesAreTheOperand :
    let q : List Access := (List.replicate 65541 (1 : Byte)).map (fun b => .write 8 (b.setWidth 32))
    (issue (q ++ [.read 1])).ibuf = [] ∧ (issue (q ++ [.read 1])).ilen = 0 ∧
    (List.replicate 65541 (1 : Byte)).length ≤ 65541 ∧ (issue (q ++ [.read 1])).pending = q ++ [.read 1] :=
  ⟨rfl, rfl, Nat.le_of_eq List.length_replicate, rfl⟩

theorem test_w_DrainReturnsTheBuffer :
    let s := { State.reset with obuf := ofBytes [4, 6, 8], olen := 3, orp := 1, pending := [.read 9, .read 9, .read 1] }
    s.obuf = ofBytes [4, 6, 8] ∧ s.olen.toNat = ([4, 6, 8] : List Byte).length ∧
    s.orp.toNat ≤ ([4, 6, 8] : List Byte).length ∧
    s.pending = List.replicate (([4, 6, 8] : List Byte).length - s.orp.toNat) (.read 9) ++ [.read 1] := by decide

theorem test_w_WireBytesAreCarried :
    ((Instr.unbindResponse, (0xFF : Byte)) ∈ [(Instr.badgeInfoRequest, (0xC6 : Byte)), (.badgeInfoResponse, 0xC7),
      (.bindRequest, 0x60), (.bindResponse, 0x61), (.unbindRequest, 0x62), (.unbindResponse, 0xFF)]) ∧
    (0x81 : Byte).toNat = 128 * (metaUnpack 0x81).flag1.toNat + 8 * (metaUnpack 0x81).packetId.toNat
      + 4 * (metaUnpack 0x81).longFlag.toNat + 2 * (metaUnpack 0x81).expectResponse.toNat
      + (metaUnpack 0x81).flag4.toNat ∧
    (0x62 : Byte).toNat = 8 * (12 : BitVec 4).toNat + 4 * false.toNat + 2 := by decide

theorem test_w_FramesAreCarriedInWireOrder :
    (withInput (List.replicate 65541 0)).ibuf = ofBytes (List.replicate 65541 0) ∧
    (withInput (List.replicate 65541 0)).ilen.toNat = (List.replicate 65541 (0 : Byte)).length ∧
    (List.replicate 65541 (0 : Byte)).length ≤ 65541 ∧
    (0x62 : Byte).toNat = 8 * (12 : BitVec 4).toNat + 4 * false.toNat + 2 := by
  refine ⟨rfl, ?_, Nat.le_of_eq List.length_replicate, by decide⟩
  simp only [withInput, List.length_replicate]; decide

/-- A state that meets the invariant with bytes in both buffers, and its step. -/
theorem test_w_StepKeepsTheInvariant :
    let s := { withInput [1, 2] with obuf := ofBytes [3], olen := 1, orp := 1, st := 0x00080424, pending := [.write 0 4] }
    Inv s ∧ ∃ t, step s = .next t := ⟨by decide, _, rfl⟩

theorem test_w_NoAccessStopsTheBlock : Inv { withInput [1, 2] with pending := [.write 0 4] } := by decide

theorem test_w_ConfigurationChangesOnlyOnReset :
    (∃ t, exec .dec (withInput [1]) = .next t) ∧ Instr.dec ≠ .srst := ⟨⟨_, rfl⟩, by decide⟩

theorem test_w_WritesByOperation :
    (∃ t, exec .mpack State.reset = .next t) ∧ (∃ t, exec .csum (withInput [1]) = .next t) ∧
    ∃ t, exec (.illegalCmd 8) State.reset = .next t := ⟨⟨_, rfl⟩, ⟨_, rfl⟩, ⟨_, rfl⟩⟩

/-- Two states that agree on the operands and on nothing else, and outcomes with a result. -/
theorem test_w_NoStateBetweenOperations :
    let s := withInput [0x5A, 0x29, 0x60, 0xC7, 0x01, 0x00, 0x01]
    let s' := { s with st := 7, csr := 1, hdr := 2, rlen := 3, metaR := 4, olen := 1, obuf := ofBytes [5] }
    Instr.dec ∈ [Instr.csum, .enc, .dec] ∧ (s.ibuf, s.ilen, s.iovf) = (s'.ibuf, s'.ilen, s'.iovf) ∧
    (s.arg, s.cfg, s.thr, s.allow) = (s'.arg, s'.cfg, s'.thr, s'.allow) ∧
    (∃ t, exec .dec s = .next t) ∧ (∃ t', exec .dec s' = .next t') ∧ errOf (after (exec .dec s)).st = 0 := by
  exact ⟨by decide, rfl, rfl, ⟨_, rfl⟩, ⟨_, rfl⟩, by decide⟩

/-- V53, V54 and V51: an exception, a warning, and neither. -/
theorem test_w_OutputLinesShowTheOutcome :
    let s := withInput [0x5A, 0x2A, 0x62, 0xC6, 0x01, 0x00, 0x01]
    let s' := withInput [0x5A, 0x28, 0x28, 0x00, 0x00, 0x00]
    let lines := fun s : State => let t := after (exec .dec s); (errO t, warnO t, ackreqO t)
    (s.iovf = false ∧ operand s = some (0x5A :: 0x2A :: 0x62 :: 0xC6 :: 0x01 :: 0x00 :: [0x01]) ∧
      ∃ t, exec .dec s = .next t) ∧
    (s'.iovf = false ∧ operand s' = some (0x5A :: 0x28 :: 0x28 :: 0x00 :: 0x00 :: 0x00 :: []) ∧
      ∃ t, exec .dec s' = .next t) ∧
    lines s = (true, false, true) ∧ lines { s with cfg := 1 } = (false, true, true) ∧
    lines s' = (false, false, false) :=
  ⟨⟨rfl, by decide, _, rfl⟩, ⟨rfl, by decide, _, rfl⟩, by decide⟩

end Sys2Proof.Tests
end

section
/-! PROOFS. Scope (`00_scope.md`): a step runs the decoded instruction (R10, R82), and no access stops the
block in a state that meets the invariant. -/

namespace Sys2Proof.Proofs.Scope

open Sys2Proof Sys2Proof.Machine

/-! ## The step -/

theorem step_of_decode_ok {s : State} {a : Access} {rest : List Access} {i : Instr}
    (hp : s.pending = a :: rest) (hd : decode a = .ok i) : step s = exec i (s.setPending rest) := by
  simp only [step, hp, hd]

/-- Settles O5: `State.setPending` is the record update that the statement writes out. -/
theorem stepRunsDecodedInstruction : Obligations.StepRunsDecodedInstruction :=
  fun _ _ _ _ hp hd _ => step_of_decode_ok hp hd

/-! ## Operations that answer a next state

Only the operand of `CSUM`, `ENC` and `DEC` and the byte of `DOUT_READ` can fault, where a buffer index
holds no value (log entry 4). -/

/-- A buffer operation answers a next state where the bytes below `ILEN` are held. -/
theorem withOperand_total {s : State} (h : HoldsExactly s.ibuf s.ilen.toNat) (k : List Byte → State) :
    ∃ t, withOperand s k = .next t := by
  obtain ⟨bs, hbs, -⟩ := operand_of_holdsExactly h
  exact ⟨k bs, withOperand_some hbs k⟩

/-- The shape of `CSUM`, `ENC` and `DEC` (R134, R152, R175): `Overrun` where its condition `c` holds, else
the operation on the operand. -/
theorem overrunOrOperand_total {s : State} (h : HoldsExactly s.ibuf s.ilen.toNat) (c : Prop) [Decidable c]
    (op : BitVec 4) (k : List Byte → State) :
    ∃ t, (if c then .next (raiseExc op .overrun s) else withOperand s k : Result) = .next t := by
  split
  · exact ⟨_, rfl⟩
  · exact withOperand_total h k

/-- Every row of the opcode table answers a next state where both buffers hold the bytes below their
counters; the rows that read no buffer do so in every state. -/
theorem exec_total (i : Instr) {s : State} (hin : HoldsExactly s.ibuf s.ilen.toNat)
    (hout : HoldsExactly s.obuf s.olen.toNat) : ∃ t, exec i s = .next t := by
  cases i with
  | csum | enc | dec => exact overrunOrOperand_total hin _ _ _
  | doutRead => exact popByte_total hout
  | nop | clr | mpack | munpk | srst | illegalCmd | dinWrite => exact ⟨_, rfl⟩
  | frame | frameBuiltByEnc | metadata | metadataBuiltByEnc => exact ⟨_, rfl⟩
  | badgeInfoRequest | badgeInfoResponse | bindRequest | bindResponse => exact ⟨_, rfl⟩
  | unbindRequest | unbindResponse | unknownCommand => exact ⟨_, rfl⟩

/-- An access that is no row of the opcode table answers a next state in every state. -/
theorem hostAccess_total (a : Access) (s : State) : ∃ t, hostAccess a s = .next t := by
  cases a with
  | read | write | push | rst => exact ⟨_, rfl⟩

/-- A step answers a next state where both buffers hold the bytes below their counters. -/
theorem step_total {s : State} (hin : HoldsExactly s.ibuf s.ilen.toNat)
    (hout : HoldsExactly s.obuf s.olen.toNat) : ∃ t, step s = .next t := by
  obtain ⟨-, hstep⟩ | ⟨a, rest, -, ⟨i, -, hstep⟩ | ⟨_, -, hstep⟩⟩ := step_cases s
  · exact ⟨s, hstep⟩
  · rw [hstep]
    exact exec_total i hin hout
  · rw [hstep]
    exact hostAccess_total a _

/-- Settles O43, from the part of the invariant that says which indices the buffers hold (R22, R23). -/
theorem noAccessStopsTheBlock : Obligations.NoAccessStopsTheBlock := by
  rintro s ⟨⟨hin, hout, -⟩, -⟩
  exact step_total hin hout

end Sys2Proof.Proofs.Scope
end

section
/-! PROOFS. The state of the block (`10_state.md`): what the host's register accesses do (R24 to R42), what
each row of the opcode table writes and leaves (R20, R43, R44), and the invariant that every step keeps. -/

namespace Sys2Proof.Proofs.BlockState

open Sys2Proof Sys2Proof.Machine

/-! ## Words as numbers -/

theorem lowBits_eq {w : Nat} (k : Nat) (v : BitVec w) :
    v.extractLsb' 0 k = BitVec.ofNat k (v.toNat % 2 ^ k) :=
  BitVec.eq_of_toNat_eq (by simp)

theorem lowByte_eq (v : Word) : v.extractLsb' 0 8 = BitVec.ofNat 8 (v.toNat % 256) := lowBits_eq 8 v

theorem toNat_field {w : Nat} (v : BitVec w) (lo len : Nat) :
    (v.extractLsb' lo len).toNat = v.toNat / 2 ^ lo % 2 ^ len := by
  rw [BitVec.extractLsb'_toNat, Nat.shiftRight_eq_div_pow]

theorem getLsbD_eq_decide {w : Nat} (v : BitVec w) (k : Nat) :
    v.getLsbD k = decide (v.toNat / 2 ^ k % 2 = 1) :=
  Nat.testBit_eq_decide_div_mod_eq

theorem eq_zero_iff_toNat {w : Nat} {v : BitVec w} : v = 0 ↔ v.toNat = 0 := by
  rw [← BitVec.toNat_inj]
  simp

theorem counter_succ (n : BitVec 17) : n + 1 = BitVec.ofNat 17 (n.toNat + 1) := BitVec.eq_of_toNat_eq rfl

/-- A counter within `BUF_CAP` does not wrap (R7). -/
theorem toNat_counter_succ {n : BitVec 17} (h : n.toNat ≤ 65541) : (n + 1).toNat = n.toNat + 1 := by
  rw [counter_succ, BitVec.toNat_ofNat, Nat.mod_eq_of_lt (by omega)]

/-! ## Accesses that are no row of the opcode table -/

theorem step_of_decode_error {s : State} {a : Access} {rest : List Access} {e : Reject}
    (hp : s.pending = a :: rest) (hd : decode a = .error e) : step s = hostAccess a (s.setPending rest) := by
  simp only [step, hp, hd]

/-- A pending read of any register but `DOUT` returns its value. -/
theorem step_read {s : State} {n : RegNum} {rest : List Access} (hp : s.pending = .read n :: rest)
    (hn : n ≠ 9) : step s = .next ((s.setPending rest).returnValue (regView n s)) :=
  step_of_decode_error hp (if_neg hn)

theorem decode_write_plain {n : RegNum} (v : Word) (h0 : n.toNat ≠ 0) (h8 : n.toNat ≠ 8) :
    decode (.write n v) = .error .plainRegister := by
  simp only [decode]

/-- A pending write of any register but `CMD` and `DIN` stores the legal part of its value. -/
theorem step_write {s : State} {n : RegNum} {v : Word} {rest : List Access}
    (hp : s.pending = .write n v :: rest) (h0 : n.toNat ≠ 0) (h8 : n.toNat ≠ 8) :
    step s = .next (regStore n v (s.setPending rest)) :=
  step_of_decode_error hp (decode_write_plain v h0 h8)

/-! ## What a register reads as -/

/-- The value of every register but `DOUT` as a number, its fields in their places (R24 to R42). -/
def regNat (n : RegNum) (s : State) : Nat :=
  if n = 1 then s.st.toNat % 16777216 + 16777216 * s.iovf.toNat
  else if n = 2 then s.cfg.toNat
  else if n = 3 then s.thr.toNat
  else if n = 4 then s.arg.toNat
  else if n = 5 then s.metaR.toNat
  else if n = 6 then
    s.mfields.packetId.toNat + 256 * s.mfields.longFlag.toNat + 512 * s.mfields.expectResponse.toNat
      + 1024 * s.mfields.flag1.toNat + 2048 * s.mfields.flag4.toNat
  else if n = 7 then s.csr.toNat
  else if n = 10 then s.ilen.toNat
  else if n = 11 then s.olen.toNat
  else if n = 12 then s.orp.toNat
  else if n = 13 then s.hdr.toNat
  else if n = 14 then s.rlen.toNat
  else if 16 ≤ n.toNat ∧ n.toNat ≤ 23 then s.allow.toNat / 2 ^ (32 * (n.toNat - 16)) % 2 ^ 32
  else 0

/-- R41: `ALLOWk` is the `k`-th group of 32 bits of the bitmap. -/
theorem toNat_allowWord (m : BitVec 256) (k : Nat) :
    (allowWord m k).toNat = m.toNat / 2 ^ (32 * k) % 2 ^ 32 :=
  toNat_field m (32 * k) 32

theorem regView_eq_regNat (n : RegNum) (s : State) : regView n s = BitVec.ofNat 32 (regNat n s) := by
  simp only [regView]
  split
  case h_1 hn => simp [regNat, ← BitVec.toNat_inj, hn, ← toNat_statusView]
  case h_6 hn => simp [regNat, ← BitVec.toNat_inj, hn, ← toNat_mfieldsView]
  case h_13 =>
    simp only [imp_false] at *
    have hrest : regNat n s =
        if 16 ≤ n.toNat ∧ n.toNat ≤ 23 then (allowWord s.allow (n.toNat - 16)).toNat else 0 := by
      simp [regNat, ← BitVec.toNat_inj, toNat_allowWord, *]
    rw [hrest]
    split
    · exact (BitVec.toNat_eq_nat.1 rfl).2
    · rfl
  all_goals next hn => simp [regNat, ← BitVec.toNat_inj, hn]

/-- Settles O7: `regNat` is the value that the statement writes out. -/
theorem registerReadsReturnTheRegister : Obligations.RegisterReadsReturnTheRegister := by
  intro s n rest hp hn
  rw [step_read hp hn, regView_eq_regNat]
  rfl

/-! ## What a register write stores -/

/-- R28: bits 3:2 are kept, and the policy is at most 2. -/
theorem toNat_cfgOf (v : Word) : (cfgOf v).toNat = 4 * (v.toNat / 4 % 4) + min (v.toNat % 4) 2 := by
  have hlow : (v.extractLsb' 0 2).toNat = v.toNat % 4 := by simp
  have hpol : (if v.extractLsb' 0 2 = 3 then 2#2 else v.extractLsb' 0 2).toNat = min (v.toNat % 4) 2 := by
    split
    · next h3 =>
      rw [← hlow, h3]
      rfl
    · next h3 =>
      have hne : v.toNat % 4 ≠ 3 := by
        rw [← hlow]
        exact fun e => h3 (BitVec.eq_of_toNat_eq e)
      omega
  rw [cfgOf, BitVec.toNat_append, shiftLeft_or_eq _ _ _ (BitVec.isLt _), hpol, toNat_field]
  omega

/-- R32: the field each bit of a word written to `MFIELDS` is stored in. -/
theorem mfieldsOf_eq (v : Word) :
    mfieldsOf v = { flag1 := decide (v.toNat / 1024 % 2 = 1), packetId := BitVec.ofNat 4 (v.toNat % 16),
                    longFlag := decide (v.toNat / 256 % 2 = 1),
                    expectResponse := decide (v.toNat / 512 % 2 = 1),
                    flag4 := decide (v.toNat / 2048 % 2 = 1) } := by
  simp only [mfieldsOf, getLsbD_eq_decide, lowBits_eq, Nat.reducePow]

theorem regStore_allow {n : RegNum} (v : Word) (s : State) (hl : 16 ≤ n.toNat) (hu : n.toNat ≤ 23) :
    regStore n v s = s.setAllow (setAllowWord s.allow (n.toNat - 16) v) := by
  simp only [regStore]
  split
  case h_6 => exact if_pos ⟨hl, hu⟩
  all_goals omega

/-- R24, R42: every number but those of `CFG`, `THR`, `ARG`, `META`, `MFIELDS` and `ALLOWk`. -/
theorem regStore_ignored {n : RegNum} (v : Word) (s : State)
    (hn : n.toNat ≤ 1 ∨ 7 ≤ n.toNat ∧ n.toNat ≤ 15 ∨ 24 ≤ n.toNat) : regStore n v s = s := by
  simp only [regStore]
  split
  case h_6 => exact if_neg (by omega)
  all_goals omega

/-- Settles O8. -/
theorem cfgWriteStoresLegalPolicy : Obligations.CfgWriteStoresLegalPolicy := by
  intro s v rest hp
  have hcfg : cfgOf v = BitVec.ofNat 4 (4 * (v.toNat / 4 % 4) + min (v.toNat % 4) 2) :=
    (BitVec.toNat_eq_nat.1 (toNat_cfgOf v)).2
  rw [step_write hp (by decide) (by decide), ← hcfg]
  rfl

/-- Settles O9. -/
theorem operandRegisterWrites : Obligations.OperandRegisterWrites := by
  intro s v rest
  refine ⟨fun hp => ?_, fun hp => ?_, fun hp => ?_, fun hp => ?_⟩ <;>
    rw [step_write hp (by decide) (by decide)]
  · exact congrArg (fun x => Host.Outcome.next ((s.setPending rest).setThr x)) (lowBits_eq 17 v)
  · exact congrArg (fun x => Host.Outcome.next ((s.setPending rest).setArg x)) (lowBits_eq 16 v)
  · exact congrArg (fun x => Host.Outcome.next ((s.setPending rest).setMeta x)) (lowByte_eq v)
  · exact congrArg (fun x => Host.Outcome.next ((s.setPending rest).setMfields x)) (mfieldsOf_eq v)

/-- Settles O10: the bitmap is that of `setAllowWord`. -/
theorem allowWriteSetsItsBits : Obligations.AllowWriteSetsItsBits := by
  intro s n v rest hl hu hp
  refine ⟨setAllowWord s.allow (n.toNat - 16) v, ?_, fun j => getLsbD_setAllowWord _ _ _ _ (by omega)⟩
  rw [step_write hp (by omega) (by omega), regStore_allow v _ hl hu]
  rfl

/-- Settles O11. -/
theorem readOnlyAndReservedWritesIgnored : Obligations.ReadOnlyAndReservedWritesIgnored := by
  intro s n v rest hn hp
  simp only [List.mem_cons, List.not_mem_nil, or_false] at hn
  rw [step_write hp (by omega) (by omega), regStore_ignored v _ (by omega)]
  rfl

/-- Settles O12, on the one state `State.reset`. -/
theorem resetValues : Obligations.ResetValues := by
  unfold Obligations.ResetValues
  decide

/-! ## The byte streams (R34, R35) -/

theorem dinWrite_stores {s : State} (v : Word) (h : s.ilen.toNat < 65541) :
    exec (.dinWrite v) s = .next (s.appendByte (v.extractLsb' 0 8)) :=
  congrArg Host.Outcome.next (if_pos h)

theorem dinWrite_drops {s : State} (v : Word) (h : 65541 ≤ s.ilen.toNat) :
    exec (.dinWrite v) s = .next s.setIovf :=
  congrArg Host.Outcome.next (if_neg (not_lt.2 h))

theorem doutRead_pops {s : State} {b : Byte} (hlt : s.orp.toNat < s.olen.toNat)
    (hb : readByte s.obuf s.orp.toNat = some b) :
    exec .doutRead s = .next (s.advanceOrp.returnValue (b.setWidth 32)) := by
  change popByte s = _
  rw [popByte, if_pos hlt, hb]

theorem doutRead_empty {s : State} (hge : s.olen.toNat ≤ s.orp.toNat) :
    exec .doutRead s = .next (s.returnValue 0x80000000) :=
  if_neg (not_lt.2 hge)

/-- Settles O32. -/
theorem dinPushesOrDrops : Obligations.DinPushesOrDrops := by
  intro s v
  refine ⟨rfl, fun hlt => ?_, fun hge => dinWrite_drops v hge, fun rest hp => step_read hp (by decide)⟩
  rw [dinWrite_stores v hlt, State.appendByte, lowByte_eq, counter_succ]

/-- Settles O33, from the laws of a buffer write. -/
theorem dinStoresOneByte : Obligations.DinStoresOneByte := by
  intro s t v h
  rcases Nat.lt_or_ge s.ilen.toNat 65541 with hlt | hge
  · rw [dinWrite_stores v hlt, lowByte_eq] at h
    cases h
    refine ⟨fun _ => readByte_writeByte_same _ _ _, fun a ha => ?_, wf_writeByte _ _ _, rfl⟩
    exact readByte_writeByte_other _ _ (ha.resolve_right (not_le.2 hlt))
  · rw [dinWrite_drops v hge] at h
    cases h
    exact ⟨fun hlt => absurd hge (not_le.2 hlt), fun _ _ => rfl, id, rfl⟩

/-- Settles O34. -/
theorem doutPopsOrIsEmpty : Obligations.DoutPopsOrIsEmpty := by
  intro s
  refine ⟨rfl, fun b hlt hb => ?_, fun hge => doutRead_empty hge, fun v rest hp => ?_⟩
  · rw [doutRead_pops hlt hb, State.advanceOrp, State.returnValue, counter_succ, BitVec.ofNat_toNat]
  · exact step_of_decode_error hp rfl

/-! ## What each row of the opcode table can do -/

/-- The bytes a row pushes into `IBUF`: those of a wire item (log entry 3), or the byte of `DIN_WRITE`. -/
def pushedBytes : Instr → Option (List Byte)
  | .frame k cs m c len payload => some (frameBytes k cs m c len payload)
  | .frameBuiltByEnc k cs i g c len payload => some (frameBytes k cs (builtFields i g) c len payload)
  | .metadata m => some [metaPack m]
  | .metadataBuiltByEnc i g => some [metaPack (builtFields i g)]
  | .badgeInfoRequest => some [0xC6]
  | .badgeInfoResponse => some [0xC7]
  | .bindRequest => some [0x60]
  | .bindResponse => some [0x61]
  | .unbindRequest => some [0x62]
  | .unbindResponse => some [0xFF]
  | .unknownCommand c => some [c]
  | .dinWrite v => some [v.extractLsb' 0 8]
  | .nop | .clr | .csum | .enc | .dec | .mpack | .munpk | .srst | .illegalCmd _ | .doutRead => none

theorem exec_of_pushedBytes {i : Instr} {bs : List Byte} (h : pushedBytes i = some bs) (s : State) :
    exec i s = .next (pushBytes Config.params bs s) := by
  cases i <;> cases h <;> rfl

/-- A row that pushes bytes is none of the operations, and not the load. -/
theorem not_operation_of_pushedBytes {i : Instr} {bs : List Byte} (h : pushedBytes i = some bs) :
    ¬ (i ∈ [.nop, .mpack, .munpk, .doutRead] ∨ ∃ v, i = .illegalCmd v) ∧
      i ∉ [.clr, .csum, .enc, .dec, .srst] := by
  cases i <;> simp_all [pushedBytes]

/-- The next states that a row of the opcode table can answer from `s`, one constructor per outcome. -/
inductive RowOutcome (s : State) : Instr → State → Prop
  | nop : RowOutcome s .nop s
  | clr : RowOutcome s .clr (s.consumeIbuf.emptyObuf.setStatus { lastop := 1 })
  | raise {i op x} (hi : i ∈ [.csum, .enc, .dec]) : RowOutcome s i (raiseExc op x s)
  | csum (bs) : RowOutcome s .csum (((s.setCsr (checksum bs)).setStatus { lastop := 2 }).consumeIbuf)
  | enc {bs} (hlen : bs.length ≤ 65535) : RowOutcome s .enc (encWrites Config.params s bs)
  | dec {m cs md c l0 l1 p} (hop : operand s = some (m :: cs :: md :: c :: l0 :: l1 :: p)) :
      RowOutcome s .dec (decWrites s (decodeParts (decodeConfig s) m cs md c l0 l1 p))
  | mpack : RowOutcome s .mpack ((s.setMeta (metaPack s.mfields)).setStatus { lastop := 5 })
  | munpk : RowOutcome s .munpk ((s.setMfields (metaUnpack s.metaR)).setStatus { lastop := 6 })
  | srst : RowOutcome s .srst (resetBlock s)
  | illegalCmd (v) :
      RowOutcome s (.illegalCmd v) (s.setStatus (raisedStatus (v.extractLsb' 0 4) .illegalOp))
  | push {i bs} (hi : pushedBytes i = some bs) : RowOutcome s i (pushBytes Config.params bs s)
  | pop (b : Byte) (hlt : s.orp.toNat < s.olen.toNat) :
      RowOutcome s .doutRead (s.advanceOrp.returnValue (b.setWidth 32))
  | popEmpty : RowOutcome s .doutRead (s.returnValue 0x80000000)

/-- The shape of `CSUM`, `ENC` and `DEC` (R134, R152, R175): `Overrun` where its condition `c` holds, else
the operation on the operand. -/
theorem overrunOrOperand_next {s t : State} {c : Prop} [Decidable c] {op : BitVec 4} {k : List Byte → State}
    (h : (if c then .next (raiseExc op .overrun s) else withOperand s k : Result) = .next t) :
    (c ∧ t = raiseExc op .overrun s) ∨ (¬ c ∧ ∃ bs, operand s = some bs ∧ t = k bs) := by
  split at h
  · next hc => exact .inl ⟨hc, (Host.Outcome.next.inj h).symm⟩
  · next hc => exact .inr ⟨hc, withOperand_next.1 h⟩

theorem csum_next {s t : State} (h : exec .csum s = .next t) : RowOutcome s .csum t := by
  obtain ⟨-, rfl⟩ | ⟨-, bs, -, rfl⟩ := overrunOrOperand_next h
  · exact .raise (by simp)
  · exact .csum bs

theorem enc_next {s t : State} (h : exec .enc s = .next t) : RowOutcome s .enc t := by
  obtain ⟨-, rfl⟩ | ⟨-, hlen, bs, hop, rfl⟩ := encOp_next h
  · exact .raise (by simp)
  · exact .enc (operand_length hop ▸ hlen)

theorem dec_next {s t : State} (h : exec .dec s = .next t) : RowOutcome s .dec t := by
  obtain ⟨-, rfl⟩ | ⟨-, bs, hop, rfl⟩ := decOp_next h
  · exact .raise (by simp)
  · obtain ⟨-, hd⟩ | ⟨r, hr, hd⟩ := decodeOperand_cases Config.params s bs <;> rw [hd]
    · exact .raise (by simp)
    · obtain ⟨-, m, cs, md, c, l0, l1, p, rfl, rfl⟩ := frameDecode_some hr
      exact .dec hop

theorem doutRead_next {s t : State} (h : exec .doutRead s = .next t) : RowOutcome s .doutRead t := by
  obtain ⟨hlt, b, -, rfl⟩ | ⟨-, rfl⟩ := popByte_next h
  · exact .pop b hlt
  · exact .popEmpty

theorem pushing_next {i : Instr} {bs : List Byte} {s t : State} (hi : pushedBytes i = some bs)
    (h : exec i s = .next t) : RowOutcome s i t := by
  rw [exec_of_pushedBytes hi] at h
  cases h
  exact .push hi

/-- What a row of the opcode table that answers a next state did. -/
theorem exec_next {i : Instr} {s t : State} (h : exec i s = .next t) : RowOutcome s i t := by
  cases i with
  | nop => cases h; exact .nop
  | clr => cases h; exact .clr
  | csum => exact csum_next h
  | enc => exact enc_next h
  | dec => exact dec_next h
  | mpack => cases h; exact .mpack
  | munpk => cases h; exact .munpk
  | srst => cases h; exact .srst
  | illegalCmd v => cases h; exact .illegalCmd v
  | doutRead => exact doutRead_next h
  | frame | frameBuiltByEnc | metadata | metadataBuiltByEnc => exact pushing_next rfl h
  | badgeInfoRequest | badgeInfoResponse | bindRequest | bindResponse => exact pushing_next rfl h
  | unbindRequest | unbindResponse | unknownCommand | dinWrite => exact pushing_next rfl h

/-! ## What each row of the opcode table leaves (R44) -/

section
variable (P : Config.Params) (bs : List Byte) (s : State)

@[simp] theorem pushBytes_obuf : (pushBytes P bs s).obuf = s.obuf := by rw [pushBytes_only]
@[simp] theorem pushBytes_olen : (pushBytes P bs s).olen = s.olen := by rw [pushBytes_only]
@[simp] theorem pushBytes_orp : (pushBytes P bs s).orp = s.orp := by rw [pushBytes_only]
@[simp] theorem pushBytes_st : (pushBytes P bs s).st = s.st := by rw [pushBytes_only]
@[simp] theorem pushBytes_cfg : (pushBytes P bs s).cfg = s.cfg := by rw [pushBytes_only]
@[simp] theorem pushBytes_thr : (pushBytes P bs s).thr = s.thr := by rw [pushBytes_only]
@[simp] theorem pushBytes_arg : (pushBytes P bs s).arg = s.arg := by rw [pushBytes_only]
@[simp] theorem pushBytes_metaR : (pushBytes P bs s).metaR = s.metaR := by rw [pushBytes_only]
@[simp] theorem pushBytes_mfields : (pushBytes P bs s).mfields = s.mfields := by rw [pushBytes_only]
@[simp] theorem pushBytes_csr : (pushBytes P bs s).csr = s.csr := by rw [pushBytes_only]
@[simp] theorem pushBytes_hdr : (pushBytes P bs s).hdr = s.hdr := by rw [pushBytes_only]
@[simp] theorem pushBytes_rlen : (pushBytes P bs s).rlen = s.rlen := by rw [pushBytes_only]
@[simp] theorem pushBytes_allow : (pushBytes P bs s).allow = s.allow := by rw [pushBytes_only]
@[simp] theorem pushBytes_pending : (pushBytes P bs s).pending = s.pending := by rw [pushBytes_only]
@[simp] theorem pushBytes_readData : (pushBytes P bs s).readData = s.readData := by rw [pushBytes_only]

end

/-- Settles O44: every outcome but that of `SRST` leaves the configuration. -/
theorem configurationChangesOnlyOnReset : Obligations.ConfigurationChangesOnlyOnReset := by
  intro i s t h
  cases exec_next h with
  | srst => exact ⟨rfl, fun hne => absurd rfl hne⟩
  | push => simp
  | nop | clr | raise | csum | enc | dec | mpack | munpk | illegalCmd | pop | popEmpty =>
    exact ⟨rfl, fun _ => ⟨rfl, rfl, rfl, rfl⟩⟩

/-- Settles O45, outcome by outcome. -/
theorem writesByOperation : Obligations.WritesByOperation := by
  intro i s t h
  cases exec_next h with
  | push hi =>
    obtain ⟨hkeep, hempty⟩ := not_operation_of_pushedBytes hi
    exact ⟨.inl (pushBytes_st ..), .inl (pushBytes_csr ..), .inl ⟨pushBytes_hdr .., pushBytes_rlen ..⟩,
      .inl (pushBytes_metaR ..), .inl (pushBytes_mfields ..), .inl ⟨pushBytes_obuf .., pushBytes_olen ..⟩,
      .inl (pushBytes_orp ..), .inl (pushBytes_readData ..),
      fun hi => absurd hi hkeep, fun hi => absurd hi hempty⟩
  | raise hi =>
    simp only [List.mem_cons, List.not_mem_nil, or_false] at hi
    rcases hi with rfl | rfl | rfl <;> simp [raiseExc]
  | enc => simp [encWrites]
  | dec => simp [decWrites]
  | srst => simp [State.reset]
  | nop | clr | csum | mpack | munpk | illegalCmd | pop | popEmpty => simp

/-! ## STATUS (R27, R218) -/

theorem sevCode_eq_two {x : Severity} : x.code = 2 ↔ x = .error := by cases x <;> decide

theorem sevCode_eq_one {x : Severity} : x.code = 1 ↔ x = .warn := by cases x <;> decide

theorem sevCode_le (x : Severity) : x.code.toNat ≤ 2 := by cases x <;> decide

theorem errCode_eq_zero {e : Option Exc} : errCode e = 0 ↔ e = none := by
  cases e with
  | none => decide
  | some x => cases x <;> decide

theorem errCode_le (e : Option Exc) : (errCode e).toNat ≤ 7 := by
  cases e with
  | none => decide
  | some x => cases x <;> decide

/-- The zero bits of a packed status and its warning flags, as arithmetic. -/
theorem packStatus_bits (f : StatusFields) :
    (packStatus f).toNat / 64 % 4 = 0 ∧ (packStatus f).toNat / 4096 % 16 = 0 ∧
    (packStatus f).toNat / 8388608 = 0 ∧
    (packStatus f).toNat / 131072 % 8 = f.lenmis.toNat + 2 * f.csmis.toNat + 4 * f.ackreq.toNat := by
  have := toNat_packStatus f
  have := f.lastop.isLt
  have := sevCode_le f.sev
  have := errCode_le f.err
  have := f.malformed.toNat_le
  have := f.lenmis.toNat_le
  have := f.csmis.toNat_le
  have := f.ackreq.toNat_le
  have := f.unexp.toNat_le
  have := f.overrun.toNat_le
  have := f.illop.toNat_le
  omega

theorem packStatus_zeroBits (f : StatusFields) :
    (packStatus f).extractLsb' 6 2 = 0 ∧ (packStatus f).extractLsb' 12 4 = 0 ∧
      (packStatus f).extractLsb' 23 2 = 0 := by
  obtain ⟨h6, h12, h23, -⟩ := packStatus_bits f
  simp only [eq_zero_iff_toNat, toNat_field]
  omega

theorem packStatus_warnFlags (f : StatusFields) :
    (packStatus f).extractLsb' 17 3 = 0 ↔ f.lenmis = false ∧ f.csmis = false ∧ f.ackreq = false := by
  obtain ⟨-, -, -, hflags⟩ := packStatus_bits f
  rw [eq_zero_iff_toNat, toNat_field]
  simp only [Nat.reducePow, hflags, Nat.add_eq_zero_iff, Nat.mul_eq_zero, OfNat.ofNat_ne_zero, false_or,
    Bool.toNat_eq_zero, and_assoc]

/-- The severity agrees with the exception and with the warning flags (R218). -/
def Consistent (f : StatusFields) : Prop :=
  (f.sev = .error ↔ f.err ≠ none) ∧
    (f.sev = .warn → f.lenmis = true ∨ f.csmis = true ∨ f.ackreq = true)

theorem statusOk_packStatus {f : StatusFields} (hf : Consistent f) : StatusOk (packStatus f) := by
  obtain ⟨herr, hwarn⟩ := hf
  obtain ⟨h6, h12, h23⟩ := packStatus_zeroBits f
  refine ⟨h6, h12, h23, ?_, ?_, ?_, ?_⟩
  · rw [sevOf_packStatus]
    exact sevCode_le _
  · rw [sevOf_packStatus, errOf_packStatus, sevCode_eq_two, Ne, errCode_eq_zero]
    exact herr
  · rw [errOf_packStatus]
    exact errCode_le _
  · rw [sevOf_packStatus, sevCode_eq_one, Ne, packStatus_warnFlags]
    simpa only [not_and_or, Bool.not_eq_false] using hwarn

theorem consistent_raisedStatus (op : BitVec 4) (x : Exc) : Consistent (raisedStatus op x) := by
  simp [Consistent, raisedStatus]

theorem consistent_ok (op : BitVec 4) : Consistent { lastop := op } := by
  simp [Consistent]

theorem pickSev_eq_error {err : Option Exc} {lenmis csmis ackreq : Bool} :
    pickSev err lenmis csmis ackreq = .error ↔ err ≠ none := by
  cases err with
  | some x => simp [pickSev]
  | none => simp only [pickSev]; split <;> simp

theorem pickSev_eq_warn {err : Option Exc} {lenmis csmis ackreq : Bool} :
    pickSev err lenmis csmis ackreq = .warn ↔
      err = none ∧ (lenmis = true ∨ csmis = true ∨ ackreq = true) := by
  cases err with
  | some x => simp [pickSev]
  | none => simp only [pickSev]; split <;> simp_all [or_assoc]

theorem consistent_decodedStatus (cfg : DecodeConfig) (m cs md c l0 l1 : Byte) (p : List Byte) :
    Consistent (decodedStatus (decodeParts cfg m cs md c l0 l1 p)) :=
  ⟨pickSev_eq_error, fun h => (pickSev_eq_warn.1 h).2⟩

/-! ## The invariant -/

/-- The part of the invariant about `IBUF` (R22). -/
def InputOk (s : State) : Prop :=
  HoldsExactly s.ibuf s.ilen.toNat ∧ s.ilen.toNat ≤ 65541 ∧ (s.iovf = true → s.ilen.toNat = 65541)

/-- The part of the invariant about `OBUF` (R23, R25). -/
def OutputOk (s : State) : Prop :=
  HoldsExactly s.obuf s.olen.toNat ∧ s.olen.toNat ≤ 65541 ∧ s.orp.toNat ≤ s.olen.toNat

theorem inv_iff (s : State) : Machine.Inv s ↔ InputOk s ∧ OutputOk s ∧ StatusOk s.st ∧ CfgOk s.cfg := by
  constructor
  · rintro ⟨⟨hib, hob, hil, hol, horp, hov⟩, hst, hcfg⟩
    exact ⟨⟨hib, hil, hov⟩, ⟨hob, hol, horp⟩, hst, hcfg⟩
  · rintro ⟨⟨hib, hil, hov⟩, ⟨hob, hol, horp⟩, hst, hcfg⟩
    exact ⟨⟨hib, hob, hil, hol, horp, hov⟩, hst, hcfg⟩

theorem inputOk_of_empty {s : State} (hb : s.ibuf = []) (hl : s.ilen = 0) (ho : s.iovf = false) :
    InputOk s := by
  simp [InputOk, HoldsExactly, hb, hl, ho]

theorem inputOk_consumeIbuf (s : State) : InputOk s.consumeIbuf := inputOk_of_empty rfl rfl rfl

theorem outputOk_of_empty {s : State} (hb : s.obuf = []) (hl : s.olen = 0) (hp : s.orp = 0) :
    OutputOk s := by
  simp [OutputOk, HoldsExactly, hb, hl, hp]

theorem outputOk_storeObuf (s : State) {bs : List Byte} (h : bs.length ≤ 65541) :
    OutputOk (s.storeObuf bs) := by
  have hlen : (BitVec.ofNat 17 bs.length).toNat = bs.length := by
    rw [BitVec.toNat_ofNat, Nat.mod_eq_of_lt (by omega)]
  simp only [OutputOk, State.storeObuf_obuf, State.storeObuf_olen, State.storeObuf_orp, hlen]
  exact ⟨holdsExactly_ofBytes bs, h, Nat.zero_le _⟩

/-- R34: a stored byte lengthens the byte string by one, and `IOVF` is set on a full buffer only. -/
theorem inputOk_pushByte (b : Byte) (s : State) (hs : InputOk s) : InputOk (pushByte Config.params b s) := by
  obtain ⟨hb, hl, ho⟩ := hs
  obtain ⟨hlt, h⟩ | ⟨hge, h⟩ := pushByte_cases Config.params b s <;> rw [h]
  · rw [params_bufCap] at hlt
    obtain ⟨bs, hm, hlen⟩ := (holdsExactly_iff _ _).1 hb
    simp only [InputOk, State.appendByte_ibuf, State.appendByte_ilen, State.appendByte_iovf,
      toNat_counter_succ hl]
    refine ⟨(holdsExactly_iff _ _).2 ⟨bs ++ [b], ?_, by simp [hlen]⟩, hlt, fun hov => ?_⟩
    · rw [hm, ← hlen, writeByte_ofBytes_end]
    · exact absurd (ho hov) (Nat.ne_of_lt hlt)
  · exact ⟨hb, hl, fun _ => le_antisymm hl hge⟩

theorem outputOk_advanceOrp {s : State} (hs : OutputOk s) (hlt : s.orp.toNat < s.olen.toNat) :
    OutputOk s.advanceOrp := by
  obtain ⟨hb, hl, ho⟩ := hs
  refine ⟨hb, hl, ?_⟩
  rw [State.advanceOrp_orp, toNat_counter_succ (ho.trans hl)]
  exact hlt

/-- R28: a write to `CFG` stores no policy 3. -/
theorem cfgOk_cfgOf (v : Word) : CfgOk (cfgOf v) := by
  intro h
  have h3 : (cfgOf v).toNat % 4 = 3 := by simpa using congrArg BitVec.toNat h
  rw [toNat_cfgOf] at h3
  omega

/-- Settles O41. -/
theorem resetMeetsTheInvariant : Obligations.ResetMeetsTheInvariant :=
  (inv_iff _).2 ⟨inputOk_of_empty rfl rfl rfl, outputOk_of_empty rfl rfl rfl, by decide, by decide⟩

theorem pushBytes_keeps_inv (bs : List Byte) {s : State} (hs : Machine.Inv s) :
    Machine.Inv (pushBytes Config.params bs s) := by
  rw [inv_iff] at hs ⊢
  obtain ⟨hin, hout, hst, hcfg⟩ := hs
  refine ⟨pushBytes_keeps _ InputOk inputOk_pushByte bs s hin, ?_, ?_, ?_⟩
  · simpa only [OutputOk, pushBytes_obuf, pushBytes_olen, pushBytes_orp] using hout
  · rwa [pushBytes_st]
  · rwa [pushBytes_cfg]

/-- The payload of an operand with a header fits `OBUF`. -/
theorem payload_length_le {s : State} (hin : InputOk s) {m cs md c l0 l1 : Byte} {p : List Byte}
    (hop : operand s = some (m :: cs :: md :: c :: l0 :: l1 :: p)) : p.length ≤ 65541 := by
  obtain ⟨-, hl, -⟩ := hin
  have hlen := operand_length hop
  simp only [List.length_cons] at hlen
  omega

/-- Every outcome of a row of the opcode table keeps the invariant. -/
theorem rowOutcome_keeps_inv {i : Instr} {s t : State} (h : RowOutcome s i t) (hs : Machine.Inv s) :
    Machine.Inv t := by
  obtain ⟨hin, hout, hst, hcfg⟩ := (inv_iff s).1 hs
  cases h with
  | nop | popEmpty => exact hs
  | push => exact pushBytes_keeps_inv _ hs
  | srst => exact resetMeetsTheInvariant
  | clr =>
    exact (inv_iff _).2 ⟨inputOk_consumeIbuf s, outputOk_of_empty rfl rfl rfl,
      statusOk_packStatus (consistent_ok 1), hcfg⟩
  | raise =>
    exact (inv_iff _).2 ⟨inputOk_consumeIbuf _, outputOk_of_empty rfl rfl rfl,
      statusOk_packStatus (consistent_raisedStatus _ _), hcfg⟩
  | csum =>
    exact (inv_iff _).2 ⟨inputOk_consumeIbuf _, hout, statusOk_packStatus (consistent_ok 2), hcfg⟩
  | enc hlen =>
    exact (inv_iff _).2 ⟨inputOk_consumeIbuf _, outputOk_storeObuf s (by rw [frameEncode_length]; omega),
      statusOk_packStatus (consistent_ok 3), hcfg⟩
  | dec hop =>
    exact (inv_iff _).2 ⟨inputOk_consumeIbuf _, outputOk_storeObuf s (payload_length_le hin hop),
      statusOk_packStatus (consistent_decodedStatus ..), hcfg⟩
  | mpack => exact (inv_iff _).2 ⟨hin, hout, statusOk_packStatus (consistent_ok 5), hcfg⟩
  | munpk => exact (inv_iff _).2 ⟨hin, hout, statusOk_packStatus (consistent_ok 6), hcfg⟩
  | illegalCmd =>
    exact (inv_iff _).2 ⟨hin, hout, statusOk_packStatus (consistent_raisedStatus _ _), hcfg⟩
  | pop b hlt => exact (inv_iff _).2 ⟨hin, outputOk_advanceOrp hout hlt, hst, hcfg⟩

theorem regStore_keeps_inv (n : RegNum) (v : Word) {s : State} (hs : Machine.Inv s) :
    Machine.Inv (regStore n v s) := by
  obtain ⟨hbuf, hst, hcfg⟩ := hs
  rcases regStore_cases n v s with h | h | ⟨w, h⟩ | ⟨w, h⟩ | ⟨w, h⟩ | ⟨w, h⟩ | ⟨w, h⟩ <;> rw [h]
  case inr.inl => exact ⟨hbuf, hst, cfgOk_cfgOf v⟩
  all_goals exact ⟨hbuf, hst, hcfg⟩

theorem hostAccess_keeps_inv {a : Access} {s t : State} (h : hostAccess a s = .next t)
    (hs : Machine.Inv s) : Machine.Inv t := by
  cases a with
  | read n => cases h; exact hs
  | write n v => cases h; exact regStore_keeps_inv n v hs
  | push f bs => cases h; exact pushBytes_keeps_inv bs hs
  | rst => cases h; exact resetMeetsTheInvariant

/-- Settles O42: taking an access off the stream leaves the invariant, and what the access does keeps it. -/
theorem stepKeepsTheInvariant : Obligations.StepKeepsTheInvariant := by
  intro s t hs h
  obtain ⟨-, hstep⟩ | ⟨a, rest, -, ⟨i, -, hstep⟩ | ⟨_, -, hstep⟩⟩ := step_cases s <;> rw [hstep] at h
  · cases h
    exact hs
  · exact rowOutcome_keeps_inv (exec_next h) hs
  · exact hostAccess_keeps_inv h hs

/-! ## What the buffer operations depend on (R20) -/

/-- The two states agree on the operands of the buffer operations and on the configuration. -/
structure SameOperands (s s' : State) : Prop where
  ibuf : s.ibuf = s'.ibuf
  ilen : s.ilen = s'.ilen
  iovf : s.iovf = s'.iovf
  arg : s.arg = s'.arg
  cfg : s.cfg = s'.cfg
  thr : s.thr = s'.thr
  allow : s.allow = s'.allow

theorem SameOperands.operand {s s' : State} (h : SameOperands s s') : operand s = operand s' := by
  simp only [Machine.operand, h.ibuf, h.ilen]

theorem SameOperands.decodeConfig {s s' : State} (h : SameOperands s s') :
    decodeConfig s = decodeConfig s' := by
  simp only [Machine.decodeConfig, h.cfg, h.thr, h.allow]

/-- `t` and `t'` agree on what the operation `i` produces: `STATUS` and the buffers, and the result registers
unless the exception reported, `Malformed` or `Overrun`, is one without a result (R219). -/
def SameOutcome (i : Instr) (t t' : State) : Prop :=
  t.st = t'.st ∧ t.ibuf = t'.ibuf ∧ t.ilen = t'.ilen ∧ t.iovf = t'.iovf ∧
  (i ∈ [.enc, .dec] → t.obuf = t'.obuf ∧ t.olen = t'.olen ∧ t.orp = t'.orp) ∧
  (errOf t.st ≠ 1 → errOf t.st ≠ 6 → t.csr = t'.csr ∧
    (i ∈ [.enc, .dec] → t.hdr = t'.hdr ∧ t.rlen = t'.rlen ∧ t.metaR = t'.metaR ∧ t.mfields = t'.mfields))

theorem sameOutcome_raiseExc (i : Instr) (op : BitVec 4) {x : Exc} (hx : x = .overrun ∨ x = .malformed)
    (s s' : State) : SameOutcome i (raiseExc op x s) (raiseExc op x s') := by
  have herr : errOf (raiseExc op x s).st = x.code := errOf_packStatus _
  refine ⟨rfl, rfl, rfl, rfl, fun _ => ⟨rfl, rfl, rfl⟩, fun h1 h6 => ?_⟩
  rw [herr] at h1 h6
  rcases hx with rfl | rfl
  · exact absurd rfl h6
  · exact absurd rfl h1

theorem sameOutcome_csumWrites (s s' : State) (bs : List Byte) :
    SameOutcome .csum (((s.setCsr (checksum bs)).setStatus { lastop := 2 }).consumeIbuf)
      (((s'.setCsr (checksum bs)).setStatus { lastop := 2 }).consumeIbuf) :=
  ⟨rfl, rfl, rfl, rfl, by simp, fun _ _ => ⟨rfl, by simp⟩⟩

theorem sameOutcome_encWrites {s s' : State} (hs : SameOperands s s') (bs : List Byte) :
    SameOutcome .enc (encWrites Config.params s bs) (encWrites Config.params s' bs) := by
  simp only [encWrites, argId, argCommand, hs.arg, hs.ilen]
  exact ⟨rfl, rfl, rfl, rfl, fun _ => ⟨rfl, rfl, rfl⟩, fun _ _ => ⟨rfl, fun _ => ⟨rfl, rfl, rfl, rfl⟩⟩⟩

theorem sameOutcome_decodeOperand {s s' : State} (hs : SameOperands s s') (bs : List Byte) :
    SameOutcome .dec (decodeOperand Config.params s bs) (decodeOperand Config.params s' bs) := by
  rw [decodeOperand, decodeOperand, ← hs.decodeConfig]
  cases frameDecode Config.params bs (decodeConfig s) with
  | none => exact sameOutcome_raiseExc _ _ (.inr rfl) _ _
  | some r =>
    exact ⟨rfl, rfl, rfl, rfl, fun _ => ⟨rfl, rfl, rfl⟩, fun _ _ => ⟨rfl, fun _ => ⟨rfl, rfl, rfl, rfl⟩⟩⟩

/-- Two runs of an operation of the shape of `overrunOrOperand_next`: both raise `Overrun`, or both run on
the same operand. -/
theorem sameOutcome_overrunOrOperand {i : Instr} {s s' t t' : State} (hs : SameOperands s s') {c c' : Prop}
    [Decidable c] [Decidable c'] (hc : c ↔ c') {op : BitVec 4} {k k' : List Byte → State}
    (hk : ∀ bs, SameOutcome i (k bs) (k' bs))
    (h : (if c then .next (raiseExc op .overrun s) else withOperand s k : Result) = .next t)
    (h' : (if c' then .next (raiseExc op .overrun s') else withOperand s' k' : Result) = .next t') :
    SameOutcome i t t' := by
  obtain ⟨hov, rfl⟩ | ⟨hov, bs, hop, rfl⟩ := overrunOrOperand_next h <;>
    obtain ⟨hov', rfl⟩ | ⟨hov', bs', hop', rfl⟩ := overrunOrOperand_next h'
  · exact sameOutcome_raiseExc i op (.inl rfl) s s'
  · exact absurd (hc.1 hov) hov'
  · exact absurd (hc.2 hov') hov
  · rw [hs.operand, hop'] at hop
    cases hop
    exact hk bs

/-- Settles O46: `SameOutcome` is the conclusion that the statement writes out. -/
theorem noStateBetweenOperations : Obligations.NoStateBetweenOperations := by
  intro i s s' t t' hi hib hil hov harg hcfg hthr hallow h h'
  have hs : SameOperands s s' := ⟨hib, hil, hov, harg, hcfg, hthr, hallow⟩
  simp only [List.mem_cons, List.not_mem_nil, or_false] at hi
  rcases hi with rfl | rfl | rfl
  · exact sameOutcome_overrunOrOperand hs (by rw [hov]) (sameOutcome_csumWrites s s') h h'
  · exact sameOutcome_overrunOrOperand hs (by rw [hov, hil]) (sameOutcome_encWrites hs) h h'
  · exact sameOutcome_overrunOrOperand hs (by rw [hov]) (sameOutcome_decodeOperand hs) h h'

/-! ## The output lines (R43) -/

theorem errO_iff (s : State) : errO s = true ↔ s.st.toNat / 16 % 4 = 2 := by
  rw [errO, beq_iff_eq, ← BitVec.toNat_inj, toNat_sevOf]
  rfl

theorem warnO_iff (s : State) : warnO s = true ↔ s.st.toNat / 16 % 4 = 1 := by
  rw [warnO, beq_iff_eq, ← BitVec.toNat_inj, toNat_sevOf]
  rfl

theorem ackreqO_iff (s : State) : ackreqO s = true ↔ s.st.toNat / 524288 % 2 = 1 := by
  simp only [ackreqO, getLsbD_eq_decide, decide_eq_true_eq, Nat.reducePow]

theorem lines_iff_statusView (s : State) :
    (errO s = true ↔ (statusView s).toNat / 16 % 4 = 2) ∧
    (warnO s = true ↔ (statusView s).toNat / 16 % 4 = 1) ∧
    (ackreqO s = true ↔ (statusView s).toNat / 524288 % 2 = 1) ∧
    ¬ (errO s = true ∧ warnO s = true) := by
  rw [errO_iff, warnO_iff, ackreqO_iff, toNat_statusView]
  omega

section
variable {t : State} {f : StatusFields}

theorem errO_of_packStatus (h : t.st = packStatus f) : errO t = true ↔ f.sev = .error := by
  rw [errO, beq_iff_eq, h, sevOf_packStatus, sevCode_eq_two]

theorem warnO_of_packStatus (h : t.st = packStatus f) : warnO t = true ↔ f.sev = .warn := by
  rw [warnO, beq_iff_eq, h, sevOf_packStatus, sevCode_eq_one]

theorem ackreqO_of_packStatus (h : t.st = packStatus f) : ackreqO t = true ↔ f.ackreq = true := by
  obtain ⟨-, -, -, hflags⟩ := packStatus_bits f
  have := f.lenmis.toNat_le
  have := f.csmis.toNat_le
  have := f.ackreq.toNat_le
  rw [ackreqO_iff, h, ← Bool.toNat_eq_one]
  omega

end

/-- `DEC` of an operand with a header (R175). -/
theorem dec_of_header {s : State} {m cs md c l0 l1 : Byte} {p : List Byte} (hov : s.iovf = false)
    (hop : operand s = some (m :: cs :: md :: c :: l0 :: l1 :: p)) :
    exec .dec s = .next (decWrites s (decodeParts (decodeConfig s) m cs md c l0 l1 p)) := by
  change decOp Config.params s = _
  rw [decOp, hov, if_neg Bool.false_ne_true, withOperand_some hop, decodeOperand,
    frameDecode_header _ _ _ _ _ _ _ _ _ (by rw [params_malformedMax]; omega)]

/-- R169, R174, R179: the three findings of a parsed buffer that call for a warning. -/
theorem decodeParts_flags (cfg : DecodeConfig) (m cs md c l0 l1 : Byte) (p : List Byte) :
    ((decodeParts cfg m cs md c l0 l1 p).lenmis = true ↔ l0.toNat + 256 * l1.toNat ≠ p.length) ∧
    ((decodeParts cfg m cs md c l0 l1 p).csmis = true ↔ checksum (md :: c :: l0 :: l1 :: p) ≠ cs) ∧
    ((decodeParts cfg m cs md c l0 l1 p).ackreq = true ↔ md.toNat / 2 % 2 = 1) := by
  refine ⟨?_, decide_eq_true_iff, ?_⟩
  · rw [← toNat_lengthOf]
    exact decide_eq_true_iff
  · change md.getLsbD 1 = true ↔ _
    rw [getLsbD_eq_decide, decide_eq_true_iff, pow_one]

/-- Settles O47: the lines after `DEC` show the severity and the flag that `decodeParts` finds. -/
theorem outputLinesShowTheOutcome : Obligations.OutputLinesShowTheOutcome := by
  refine ⟨lines_iff_statusView, fun s t m cs md c l0 l1 p hov hop h => ?_⟩
  rw [dec_of_header hov hop] at h
  cases h
  obtain ⟨hlen, hcs, hreq⟩ := decodeParts_flags (decodeConfig s) m cs md c l0 l1 p
  have hst : (decWrites s (decodeParts (decodeConfig s) m cs md c l0 l1 p)).st
      = packStatus (decodedStatus (decodeParts (decodeConfig s) m cs md c l0 l1 p)) := rfl
  rw [ackreqO_of_packStatus hst, errO_of_packStatus hst, warnO_of_packStatus hst, hst, errOf_packStatus, Ne,
    errCode_eq_zero, ← hlen, ← hcs, ← hreq]
  exact ⟨Iff.rfl, pickSev_eq_error, pickSev_eq_warn⟩

end Sys2Proof.Proofs.BlockState
end

section
/-! PROOFS. The memory map (`20_memory.md`): a run of `DIN` writes loads `IBUF` (R71), and a run of `DOUT`
reads drains `OBUF` (R72). -/

namespace Sys2Proof.Proofs.MemoryMap

open Sys2Proof Sys2Proof.Machine
open Sys2Proof.Proofs.Scope (step_of_decode_ok)
open Sys2Proof.Proofs.BlockState (doutRead_pops counter_succ)

/-! ## Counters -/

theorem toNat_counter {n : Nat} (h : n < 131072) : (BitVec.ofNat 17 n).toNat = n := by
  rw [BitVec.toNat_ofNat, Nat.mod_eq_of_lt h]

/-- Advancing a counter that is below another one does not wrap. -/
theorem toNat_succ_of_lt {m n : BitVec 17} (h : m.toNat < n.toNat) : (m + 1).toNat = m.toNat + 1 := by
  rw [counter_succ, toNat_counter (by omega)]

/-! ## Runs -/

theorem run_zero (s : State) : Host.Core.run core 0 s = .next s := rfl

theorem run_of_step {s t : State} (k : Nat) (h : step s = .next t) :
    Host.Core.run core (k + 1) s = Host.Core.run core k t := by
  have hcore : core.step s = .next t := h
  simp only [Host.Core.run, hcore]

/-! ## Loading `IBUF` (R71) -/

/-- A pending `DIN` write of a byte pushes that byte (R34). -/
theorem step_dinWrite {s : State} {b : Byte} {rest : List Access}
    (hp : s.pending = .write 8 (b.setWidth 32) :: rest) :
    step s = .next (pushByte Config.params b (s.setPending rest)) := by
  have hb : (b.setWidth 32).extractLsb' 0 8 = b := by
    rw [BitVec.extractLsb'_setWidth_of_le (by decide), BitVec.extractLsb'_eq_self]
  rw [step_of_decode_ok hp (i := .dinWrite (b.setWidth 32)) rfl]
  change execDinWrite _ _ = _
  rw [execDinWrite, hb]

/-- A push neither reads nor writes the stream of accesses. -/
theorem pushByte_setPending (P : Config.Params) (b : Byte) (s : State) (q : List Access) :
    (pushByte P b s).setPending q = pushByte P b (s.setPending q) :=
  apply_ite (State.setPending · q) (s.ilen.toNat < P.bufCap) (s.appendByte b) s.setIovf

/-- R110: a run of one `DIN` write a byte is the push of the byte string, whether it fits or not. -/
theorem run_dinWrites (bs : List Byte) (rest : List Access) (s : State)
    (hp : s.pending = bs.map (fun b => .write 8 (b.setWidth 32)) ++ rest) :
    Host.Core.run core bs.length s = .next (pushBytes Config.params bs (s.setPending rest)) := by
  induction bs generalizing s with
  | nil =>
    have hs : s.setPending rest = s := by rw [State.setPending, ← hp.trans (List.nil_append rest)]
    rw [pushBytes_nil, hs]
    exact run_zero s
  | cons b bs ih =>
    have hstep := step_dinWrite hp
    rw [List.length_cons, run_of_step _ hstep, ih, pushByte_setPending, pushBytes_cons]
    · rfl
    · rw [pushByte_only]
      rfl

/-- Pushes of a byte string that fits lengthen the byte string held by it, and set no `IOVF` (R34). -/
theorem pushBytes_of_fits (held bs : List Byte) (s : State) (hb : s.ibuf = ofBytes held)
    (hl : s.ilen = BitVec.ofNat 17 held.length) (hfit : held.length + bs.length ≤ 65541) :
    pushBytes Config.params bs s =
      { s with ibuf := ofBytes (held ++ bs), ilen := BitVec.ofNat 17 (held ++ bs).length } := by
  induction bs generalizing held s with
  | nil => rw [pushBytes_nil, List.append_nil, ← hb, ← hl]
  | cons b bs ih =>
    rw [List.length_cons] at hfit
    have hn : s.ilen.toNat = held.length := by rw [hl, toNat_counter (by omega)]
    have hpush : pushByte Config.params b s = s.appendByte b :=
      if_pos (by rw [params_bufCap, hn]; omega)
    have hb' : (s.appendByte b).ibuf = ofBytes (held ++ [b]) := by
      rw [State.appendByte_ibuf, hb, hn, writeByte_ofBytes_end]
    have hl' : (s.appendByte b).ilen = BitVec.ofNat 17 (held ++ [b]).length := by
      rw [State.appendByte_ilen, counter_succ, hn, List.length_append, List.length_singleton]
    have hfit' : (held ++ [b]).length + bs.length ≤ 65541 := by
      rw [List.length_append, List.length_singleton]
      omega
    rw [pushBytes_cons, hpush, ih _ _ hb' hl' hfit', List.append_assoc, List.singleton_append]
    rfl

/-- Settles O36: the run is a push of the byte string, here onto the empty one. -/
theorem loadedBytesAreTheOperand : Obligations.LoadedBytesAreTheOperand := by
  intro s bs rest hb hl hlen hp
  have hpush := pushBytes_of_fits [] bs (s.setPending rest) hb hl (by simpa using hlen)
  refine ⟨_, (run_dinWrites bs rest s hp).trans (congrArg _ hpush), ?_, rfl⟩
  change readBytes (ofBytes bs) 0 (BitVec.ofNat 17 bs.length).toNat = some bs
  rw [toNat_counter (by omega), readBytes_ofBytes]

/-! ## Draining `OBUF` (R72) -/

/-- A pending `DOUT` read where `ORP` is below `OLEN` returns the byte at `ORP` and advances (R35). -/
theorem step_doutRead {s : State} {bs : List Byte} {rest : List Access} (hp : s.pending = .read 9 :: rest)
    (hb : s.obuf = ofBytes bs) (hl : s.olen.toNat = bs.length) (hlt : s.orp.toNat < bs.length) :
    step s = .next ((s.setPending rest).advanceOrp.returnValue (bs[s.orp.toNat].setWidth 32)) := by
  have hread : readByte s.obuf s.orp.toNat = some bs[s.orp.toNat] := by
    rw [hb, readByte_ofBytes, List.getElem?_eq_getElem hlt]
  rw [step_of_decode_ok hp (i := .doutRead) rfl]
  exact doutRead_pops (hl ▸ hlt) hread

/-- A run of the `k` reads that `OBUF` still has bytes for returns those bytes, by induction on `k`. -/
theorem run_doutReads (bs : List Byte) (rest : List Access) (k : Nat) (s : State)
    (hb : s.obuf = ofBytes bs) (hl : s.olen.toNat = bs.length) (hk : s.orp.toNat + k = bs.length)
    (hp : s.pending = List.replicate k (.read 9) ++ rest) :
    Host.Core.run core k s = .next { s with
      pending := rest, orp := s.olen
      readData := s.readData ++ (bs.drop s.orp.toNat).map (fun b => b.setWidth 32) } := by
  induction k generalizing s with
  | zero =>
    have horp : s.orp = s.olen := BitVec.eq_of_toNat_eq (hk.trans hl.symm)
    have hdrop : bs.drop s.orp.toNat = [] := List.drop_of_length_le (Nat.le_of_eq hk.symm)
    rw [hdrop, List.map_nil, List.append_nil, ← hp.trans (List.nil_append rest)]
    exact (run_zero s).trans (congrArg (fun n => Host.Outcome.next { s with orp := n }) horp)
  | succ k ih =>
    have hlt : s.orp.toNat < bs.length := by omega
    have horp : (s.orp + 1).toNat = s.orp.toNat + 1 := toNat_succ_of_lt (hl ▸ hlt)
    have hdrop : (bs.drop s.orp.toNat).map (fun b => b.setWidth 32)
        = bs[s.orp.toNat].setWidth 32 :: (bs.drop (s.orp + 1).toNat).map (fun b => b.setWidth 32) := by
      rw [List.drop_eq_getElem_cons hlt, List.map_cons, horp]
    have hk' : (s.orp + 1).toNat + k = bs.length := by omega
    rw [hdrop, List.append_cons]
    exact (run_of_step k (step_doutRead hp hb hl hlt)).trans (ih _ hb hl hk' rfl)

/-- Settles O37, from the run of `DOUT` reads with `OLEN - ORP` of them. -/
theorem drainReturnsTheBuffer : Obligations.DrainReturnsTheBuffer :=
  fun s bs rest hb hl hle hp => run_doutReads bs rest _ s hb hl (Nat.add_sub_of_le hle) hp

end Sys2Proof.Proofs.MemoryMap
end

section
/-! PROOFS. The encodings (`30_encoding.md`): the decoder and the encoder are inverse to each other, and the
rows that are wire formats are carried into `IBUF` as `DIN` writes of their bytes (log entry 3). -/

namespace Sys2Proof.Proofs.Encoding

open Sys2Proof Sys2Proof.Machine
open Sys2Proof.Proofs.Scope (step_of_decode_ok)
open Sys2Proof.Proofs.BlockState (toNat_field counter_succ step_of_decode_error pushedBytes
  exec_of_pushedBytes)
open Sys2Proof.Proofs.MemoryMap (toNat_counter run_dinWrites pushBytes_of_fits)

/-! ## Metadata bytes (R104, R105) -/

/-- R141 drops no bit of the byte. -/
@[simp] theorem metaPack_metaUnpack (b : Byte) : metaPack (metaUnpack b) = b := by
  apply BitVec.eq_of_toNat_eq
  have hbit : ∀ k, (b.getLsbD k).toNat = b.toNat / 2 ^ k % 2 := Nat.toNat_testBit b.toNat
  have := b.isLt
  simp only [toNat_metaPack, metaUnpack, hbit, toNat_field]
  omega

/-- The fields of R104 stand in places of their own: the identifier in bits 6:3, between the four flags. -/
@[simp] theorem metaUnpack_metaPack (F : MetaFields) : metaUnpack (metaPack F) = F := by
  obtain ⟨a, i, g, e, b⟩ := F
  simp only [metaUnpack, metaPack, BitVec.getLsbD_append, MetaFields.mk.injEq]
  refine ⟨by simp, BitVec.eq_of_getLsbD_eq fun k hk => ?_, by simp, by simp, by simp⟩
  rw [BitVec.getLsbD_extractLsb', decide_eq_true hk, Bool.true_and]
  repeat rw [BitVec.getLsbD_append]
  grind

theorem decodeMetadata_metaPack {m : MetaFields} (h : builtMeta m = false) :
    decodeMetadata (metaPack m) = .metadata m := by
  simp [decodeMetadata, h]

theorem decodeMetadata_metaPack_built (i : BitVec 4) (g : Bool) :
    decodeMetadata (metaPack (builtFields i g)) = .metadataBuiltByEnc i g := by
  simp only [decodeMetadata, metaUnpack_metaPack, builtMeta_builtFields, if_true]
  rfl

/-- The two metadata rows divide the bytes between them by the pattern `0iiiig10`. -/
theorem decodeMetadata_inverts (b : Byte) :
    (decodeMetadata b).wellFormed = true ∧ encode (decodeMetadata b) = .push .metadata [b] := by
  simp only [decodeMetadata]
  split
  · next hbuilt => exact ⟨rfl, by rw [encode, eq_builtFields hbuilt, metaPack_metaUnpack]⟩
  · next hother => exact ⟨by simpa [Instr.wellFormed] using hother, by rw [encode, metaPack_metaUnpack]⟩

/-! ## Values of `CMD` (R100, R101) -/

theorem decodeCmd_operation {v : Word} (h : v.toNat < 8) :
    decodeCmd v = [Instr.nop, .clr, .csum, .enc, .dec, .mpack, .munpk, .srst].getD v.toNat .nop := by
  simp only [decodeCmd]
  split
  case h_9 =>
    simp only [imp_false] at *
    omega
  all_goals next hv => rw [hv]; rfl

theorem decodeCmd_illegal {v : Word} (h : 8 ≤ v.toNat) : decodeCmd v = .illegalCmd v := by
  simp only [decodeCmd]
  split
  case h_9 => rfl
  all_goals omega

theorem decodeCmd_inverts (v : Word) :
    (decodeCmd v).wellFormed = true ∧ encode (decodeCmd v) = .write 0 v := by
  simp only [decodeCmd]
  split
  case h_9 =>
    simp only [imp_false] at *
    exact ⟨decide_eq_true (by omega), rfl⟩
  all_goals next hv => rw [(BitVec.toNat_eq_nat.1 hv).2]; exact ⟨rfl, rfl⟩

/-- Settles O4: an access of the form `write 0 v` is decoded by `decodeCmd`. -/
theorem onlyEightCmdValuesNameOperations : Obligations.OnlyEightCmdValuesNameOperations :=
  fun _ => ⟨fun h => congrArg Except.ok (decodeCmd_operation h),
    fun h => congrArg Except.ok (decodeCmd_illegal h)⟩

/-! ## Command bytes (R108) -/

/-- The six command bytes with a row of their own, as numbers. -/
theorem mem_knownCommands (c : Byte) :
    c ∈ knownCommands ↔ c.toNat = 0xC6 ∨ c.toNat = 0xC7 ∨ c.toNat = 0x60 ∨ c.toNat = 0x61 ∨
      c.toNat = 0x62 ∨ c.toNat = 0xFF := by
  simp only [knownCommands, List.mem_cons, List.not_mem_nil, or_false, ← BitVec.toNat_inj]
  rfl

theorem wellFormed_unknownCommand (c : Byte) :
    (Instr.unknownCommand c).wellFormed = true ↔ c ∉ knownCommands := by
  simp [Instr.wellFormed]

theorem decodeCommand_unknown {c : Byte} (h : c ∉ knownCommands) : decodeCommand c = .unknownCommand c := by
  rw [mem_knownCommands] at h
  simp only [decodeCommand]
  split
  case h_7 => rfl
  all_goals omega

theorem decodeCommand_inverts (c : Byte) :
    (decodeCommand c).wellFormed = true ∧ encode (decodeCommand c) = .push .command [c] := by
  simp only [decodeCommand]
  split
  case h_7 =>
    simp only [imp_false] at *
    rw [wellFormed_unknownCommand, mem_knownCommands]
    exact ⟨by omega, rfl⟩
  all_goals next hv => rw [(BitVec.toNat_eq_nat.1 hv).2]; exact ⟨rfl, rfl⟩

/-! ## Frames (R102) -/

theorem decodeFrame_frameBytes (k s : Byte) (m : MetaFields) (c : Byte) (len : BitVec 16) {p : List Byte}
    (hp : p.length ≤ 65535) :
    decodeFrame (frameBytes k s m c len p) =
      .ok (if builtMeta m then .frameBuiltByEnc k s m.packetId m.longFlag c len p
        else .frame k s m c len p) := by
  have hlen : ¬ 65535 < p.length := not_lt.2 hp
  simp only [frameBytes, List.cons_append, List.nil_append, decodeFrame, hlen, if_false,
    metaUnpack_metaPack, lengthOf_low_high]

/-- A byte string that is a frame has a header and at most 65535 payload bytes. -/
theorem decodeFrame_ok {bs : List Byte} {i : Instr} (h : decodeFrame bs = .ok i) :
    ∃ k s m c len p, p.length ≤ 65535 ∧ bs = frameBytes k s m c len p := by
  simp only [decodeFrame] at h
  split at h
  · next k s md c l0 l1 p =>
    split at h
    · cases h
    · next hlen =>
      refine ⟨k, s, metaUnpack md, c, lengthOf l0 l1, p, not_lt.1 hlen, ?_⟩
      simp [frameBytes]
  · cases h

theorem decodeFrame_inverts {bs : List Byte} {i : Instr} (h : decodeFrame bs = .ok i) :
    i.wellFormed = true ∧ encode i = .push .frame bs := by
  obtain ⟨k, s, m, c, len, p, hp, rfl⟩ := decodeFrame_ok h
  rw [decodeFrame_frameBytes k s m c len hp] at h
  obtain rfl := Except.ok.inj h
  split
  · next hbuilt => exact ⟨decide_eq_true hp, by rw [encode, eq_builtFields hbuilt]⟩
  · next hother => exact ⟨by simp [Instr.wellFormed, hother, hp], rfl⟩

/-! ## The decoder and the encoder -/

/-- Settles O1, row by row: a row that another row's bits could be mistaken for turns on its part of
`wellFormed`, the others decode by evaluation. -/
theorem decodeEncodeRoundTrip : Obligations.DecodeEncodeRoundTrip := by
  intro i hwf
  cases i with
  | nop | clr | csum | enc | dec | mpack | munpk | srst | dinWrite | doutRead => rfl
  | badgeInfoRequest | badgeInfoResponse | bindRequest | bindResponse | unbindRequest | unbindResponse => rfl
  | illegalCmd v => exact congrArg Except.ok (decodeCmd_illegal (of_decide_eq_true hwf))
  | frame k s m c len p =>
    obtain ⟨hm, hp⟩ : builtMeta m = false ∧ p.length ≤ 65535 := by simpa [Instr.wellFormed] using hwf
    exact (decodeFrame_frameBytes k s m c len hp).trans (by rw [hm]; rfl)
  | frameBuiltByEnc k s i g c len p =>
    exact decodeFrame_frameBytes k s (builtFields i g) c len (of_decide_eq_true hwf)
  | metadata m =>
    exact congrArg Except.ok (decodeMetadata_metaPack (by simpa [Instr.wellFormed] using hwf))
  | metadataBuiltByEnc i g => exact congrArg Except.ok (decodeMetadata_metaPack_built i g)
  | unknownCommand c =>
    exact congrArg Except.ok (decodeCommand_unknown ((wellFormed_unknownCommand c).1 hwf))

/-- R100, R34: the two registers whose write is a row of the table. -/
theorem decode_write_inverts {n : RegNum} {v : Word} {i : Instr} (h : decode (.write n v) = .ok i) :
    i.wellFormed = true ∧ encode i = .write n v := by
  simp only [decode] at h
  split at h
  case h_1 hn =>
    obtain rfl : n = 0 := BitVec.eq_of_toNat_eq hn
    cases h
    exact decodeCmd_inverts v
  case h_2 hn =>
    obtain rfl : n = 8 := BitVec.eq_of_toNat_eq hn
    cases h
    exact ⟨rfl, rfl⟩
  case h_3 => cases h

/-- R35: the one register whose read is a row of the table. -/
theorem decode_read_inverts {n : RegNum} {i : Instr} (h : decode (.read n) = .ok i) :
    i.wellFormed = true ∧ encode i = .read n := by
  simp only [decode] at h
  split at h
  · next hn => subst hn; cases h; exact ⟨rfl, rfl⟩
  · cases h

theorem decode_push_inverts {f : WireFormat} {bs : List Byte} {i : Instr}
    (h : decode (.push f bs) = .ok i) : i.wellFormed = true ∧ encode i = .push f bs := by
  cases f with
  | frame => exact decodeFrame_inverts h
  | metadata =>
    simp only [decode] at h
    split at h
    · next b => cases h; exact decodeMetadata_inverts b
    · cases h
  | command =>
    simp only [decode] at h
    split at h
    · next c => cases h; exact decodeCommand_inverts c
    · cases h

/-- Settles O2, by the kind of the access. -/
theorem encodeDecodeRoundTrip : Obligations.EncodeDecodeRoundTrip := by
  intro a i h
  cases a with
  | read n => exact decode_read_inverts h
  | write n v => exact decode_write_inverts h
  | push f bs => exact decode_push_inverts h
  | rst => cases h

/-- Settles O3: the decoder evaluates to the row at each of the ten accesses. -/
theorem writtenWordsDecode : Obligations.WrittenWordsDecode :=
  ⟨rfl, rfl, rfl, rfl, rfl, rfl, rfl, rfl, rfl, rfl⟩

/-! ## One byte pushed (R34, log entry 3) -/

theorem metaPack_eq_of_toNat {F : MetaFields} {b : Byte}
    (h : b.toNat = 128 * F.flag1.toNat + 8 * F.packetId.toNat + 4 * F.longFlag.toNat
      + 2 * F.expectResponse.toNat + F.flag4.toNat) : metaPack F = b :=
  BitVec.eq_of_toNat_eq ((toNat_metaPack F).trans h.symm)

/-- R105: the pattern `0iiiig10` as arithmetic. -/
theorem metaPack_builtFields_eq_of_toNat {n : BitVec 4} {g : Bool} {b : Byte}
    (h : b.toNat = 8 * n.toNat + 4 * g.toNat + 2) : metaPack (builtFields n g) = b := by
  apply metaPack_eq_of_toNat
  simp only [builtFields, Bool.toNat_false, Bool.toNat_true]
  omega

/-- What a push of one byte leaves (R34), written out. -/
theorem pushByte_eq (b : Byte) (s : State) :
    pushByte Config.params b s = if s.ilen.toNat < 65541 then
      { s with ibuf := writeByte s.ibuf s.ilen.toNat b, ilen := BitVec.ofNat 17 (s.ilen.toNat + 1) }
      else { s with iovf := true } := by
  rw [← counter_succ]
  rfl

/-- Settles O38: each of the nine rows pushes its one byte. -/
theorem wireBytesAreCarried : Obligations.WireBytesAreCarried := by
  intro s i b hi
  have hpushed : pushedBytes i = some [b] := by
    rcases hi with hcmd | rfl | ⟨m, rfl, hb⟩ | ⟨n, g, rfl, hb⟩
    · simp only [List.mem_cons, List.not_mem_nil, or_false, Prod.mk.injEq] at hcmd
      rcases hcmd with ⟨rfl, rfl⟩ | ⟨rfl, rfl⟩ | ⟨rfl, rfl⟩ | ⟨rfl, rfl⟩ | ⟨rfl, rfl⟩ | ⟨rfl, rfl⟩ <;> rfl
    · rfl
    · rw [pushedBytes, metaPack_eq_of_toNat hb]
    · rw [pushedBytes, metaPack_builtFields_eq_of_toNat hb]
  rw [exec_of_pushedBytes hpushed, pushBytes_cons, pushBytes_nil, pushByte_eq]

/-! ## Byte strings pushed (R34, R110, log entry 3) -/

/-- Pushes into a full `IBUF` drop every byte, and set `IOVF` if there is one. -/
theorem pushBytes_of_full (bs : List Byte) (s : State) (h : 65541 ≤ s.ilen.toNat) :
    pushBytes Config.params bs s = { s with iovf := s.iovf || decide (0 < bs.length) } := by
  induction bs generalizing s with
  | nil => simp
  | cons b bs ih =>
    have hpush : pushByte Config.params b s = s.setIovf := if_neg (not_lt.2 h)
    rw [pushBytes_cons, hpush, ih s.setIovf h]
    simp [State.setIovf]

/-- Pushes of a byte string onto the one that `IBUF` holds: what fits is stored, and `IOVF` tells whether a
byte was dropped (R34). -/
theorem pushBytes_eq (held bs : List Byte) (s : State) (hb : s.ibuf = ofBytes held)
    (hl : s.ilen.toNat = held.length) (hle : held.length ≤ 65541) :
    pushBytes Config.params bs s = { s with
      ibuf := ofBytes ((held ++ bs).take 65541)
      ilen := BitVec.ofNat 17 (min (held.length + bs.length) 65541)
      iovf := s.iovf || decide (65541 < held.length + bs.length) } := by
  have hl' : s.ilen = BitVec.ofNat 17 held.length := (BitVec.toNat_eq_nat.1 hl).2
  rcases Nat.lt_or_ge 65541 (held.length + bs.length) with hover | hfit
  · have hlen : (held ++ bs.take (65541 - held.length)).length = 65541 := by
      rw [List.length_append, List.length_take]
      omega
    have hcut : (held ++ bs).take 65541 = held ++ bs.take (65541 - held.length) := by
      rw [List.take_append, List.take_of_length_le hle]
    have hdropped : 0 < (bs.drop (65541 - held.length)).length := by
      rw [List.length_drop]
      omega
    calc pushBytes Config.params bs s
      _ = pushBytes Config.params (bs.drop (65541 - held.length))
            (pushBytes Config.params (bs.take (65541 - held.length)) s) := by
          rw [← pushBytes_append, List.take_append_drop]
      _ = pushBytes Config.params (bs.drop (65541 - held.length))
            { s with ibuf := ofBytes ((held ++ bs).take 65541), ilen := BitVec.ofNat 17 65541 } := by
          rw [pushBytes_of_fits held _ s hb hl' (by rw [← List.length_append, hlen]), hlen, hcut]
      _ = _ := by
          rw [pushBytes_of_full _ _ (toNat_counter (by decide)).ge, decide_eq_true hdropped,
            decide_eq_true hover, Nat.min_eq_right hover.le]
  · rw [pushBytes_of_fits held bs s hb hl' hfit, List.take_of_length_le (by rwa [List.length_append]),
      Nat.min_eq_left hfit, decide_eq_false (not_lt.2 hfit), Bool.or_false, List.length_append]

/-- R103: the bytes of the length, low byte first, as arithmetic. -/
theorem frameBytes_eq (k s : Byte) (m : MetaFields) (c : Byte) (len : BitVec 16) (p : List Byte) :
    frameBytes k s m c len p =
      [k, s, metaPack m, c, BitVec.ofNat 8 (len.toNat % 256), BitVec.ofNat 8 (len.toNat / 256)] ++ p := by
  have hlow := (BitVec.toNat_eq_nat.1 (toNat_lengthLow len)).2
  have hhigh := (BitVec.toNat_eq_nat.1 (toNat_lengthHigh len)).2
  rw [frameBytes, hlow, hhigh]

/-- Settles O39: both rows push the bytes of the frame. -/
theorem framesAreCarriedInWireOrder : Obligations.FramesAreCarriedInWireOrder := by
  intro s held i k cs md c len p hb hl hle hi f
  have hpushed : pushedBytes i = some f := by
    obtain ⟨m, rfl, hmd⟩ | ⟨n, g, rfl, hmd⟩ := hi
    · rw [pushedBytes, frameBytes_eq, metaPack_eq_of_toNat hmd]
    · rw [pushedBytes, frameBytes_eq, metaPack_builtFields_eq_of_toNat hmd]
  rw [exec_of_pushedBytes hpushed, pushBytes_eq held f s hb hl hle]

/-! ## A push as `DIN` writes (R110) -/

theorem pushedBytes_of_encode {i : Instr} {f : WireFormat} {bs : List Byte} (h : encode i = .push f bs) :
    pushedBytes i = some bs := by
  cases i <;> cases h <;> rfl

/-- A pending push enters its bytes, whether or not it is a row of the table. -/
theorem step_push {s : State} {f : WireFormat} {bs : List Byte} {rest : List Access}
    (hp : s.pending = .push f bs :: rest) :
    step s = .next (pushBytes Config.params bs (s.setPending rest)) := by
  cases hd : decode (.push f bs) with
  | ok i =>
    obtain ⟨-, henc⟩ := decode_push_inverts hd
    rw [step_of_decode_ok hp hd, exec_of_pushedBytes (pushedBytes_of_encode henc)]
  | error e => exact step_of_decode_error hp hd

/-- Settles O40: both sides push the byte string. -/
theorem pushIsOneDinAccessPerByte : Obligations.PushIsOneDinAccessPerByte := by
  intro s f bs rest
  rw [step_push rfl, run_dinWrites bs rest _ rfl]
  rfl

end Sys2Proof.Proofs.Encoding
end

section
/-! PROOFS. The checksum (`40_checksum.md`): the signed wrapping sum of R130 is the sum of the bytes in
arithmetic modulo 256, from which R131 and the laws of R132 follow, and the operation `CSUM` (R134). -/

namespace Sys2Proof.Proofs.Checksum

open Sys2Proof Sys2Proof.Machine

/-! ## The checksum as a sum of bytes (R130, R131) -/

/-- The sum is that of `Byte`, which wraps at 256, so the signed reading of R130 leaves no trace. -/
theorem checksum_eq_sum (bs : List Byte) : checksum bs = bs.sum :=
  (u8_foldl bs 0).trans List.sum_eq_foldl.symm

theorem toNat_sum {w : Nat} (bs : List (BitVec w)) : bs.sum.toNat = (bs.map BitVec.toNat).sum % 2 ^ w := by
  induction bs with
  | nil => simp
  | cons b bs ih => rw [List.sum_cons, BitVec.toNat_add, ih, Nat.add_mod_mod, List.map_cons, List.sum_cons]

/-- Settles O17. -/
theorem checksumIsUnsignedSum : Obligations.ChecksumIsUnsignedSum := by
  intro bs
  rw [checksum_eq_sum]
  exact toNat_sum bs

/-! ## The laws of the checksum (R132) -/

theorem checksum_singleton (b : Byte) : checksum [b] = b := by
  rw [checksum_eq_sum, List.sum_singleton]

theorem checksum_append (xs ys : List Byte) : checksum (xs ++ ys) = checksum xs + checksum ys := by
  simp only [checksum_eq_sum, List.sum_append]

theorem checksum_perm {xs ys : List Byte} (h : xs.Perm ys) : checksum xs = checksum ys := by
  rw [checksum_eq_sum, checksum_eq_sum, h.sum_eq]

theorem checksum_filter_ne_zero (xs : List Byte) : checksum (xs.filter (· ≠ 0)) = checksum xs := by
  simp only [checksum_eq_sum, ne_eq, decide_not]
  exact List.sum_filter_bne_zero xs

/-- The complement `u8(256 - b)` of a byte is its additive inverse. -/
theorem add_complement (b : Byte) : b + BitVec.ofNat 8 (256 - b.toNat) = 0 := by
  have hb := b.isLt
  apply BitVec.eq_of_toNat_eq
  rw [BitVec.toNat_add, BitVec.toNat_ofNat, Nat.add_mod_mod, Nat.add_sub_cancel' hb.le]
  rfl

theorem checksum_append_complement (xs : List Byte) :
    checksum (xs ++ [BitVec.ofNat 8 (256 - (checksum xs).toNat)]) = 0 := by
  rw [checksum_append, checksum_singleton, add_complement]

/-- Settles O18: the laws for every byte string, and the two boundary sums by evaluation. -/
theorem checksumLaws : Obligations.ChecksumLaws :=
  ⟨rfl, checksum_singleton, checksum_append, fun _ _ => checksum_perm, checksum_filter_ne_zero,
    checksum_append_complement, by decide, by decide⟩

/-! ## The operation `CSUM` (R134) -/

theorem exec_csum_of_iovf {s : State} (h : s.iovf = true) :
    exec .csum s = .next (raiseExc 2 .overrun s) := if_pos h

theorem exec_csum_of_operand {s : State} {bs : List Byte} (h : s.iovf = false) (hop : operand s = some bs) :
    exec .csum s = .next (((s.setCsr (checksum bs)).setStatus { lastop := 2 }).consumeIbuf) := by
  exact (if_neg (Bool.eq_false_iff.1 h)).trans (withOperand_some hop _)

/-- Settles O19: the two outcomes of `CSUM`, with the values of `STATUS` (R27, R216) evaluated. -/
theorem csumOperation : Obligations.CsumOperation := by
  intro s
  refine ⟨rfl, fun hov => ?_, fun bs hov hop => ?_⟩
  · have hst : packStatus (raisedStatus 2 .overrun) = 0x00200622 := by decide
    rw [exec_csum_of_iovf hov, raiseExc_eq, hst]
  · have hst : packStatus { lastop := 2 } = 0x00000002 := by decide
    rw [exec_csum_of_operand hov hop, State.setStatus, hst]
    rfl

end Sys2Proof.Proofs.Checksum
end

section
/-! PROOFS. The metadata byte (`41_metadata.md`): packing and unpacking as arithmetic (R140, R141), and the
operations `MPACK` and `MUNPK` (R143, R144), which are inverse to each other because the functions are. -/

namespace Sys2Proof.Proofs.Metadata

open Sys2Proof Sys2Proof.Machine
open Sys2Proof.Proofs.BlockState (getLsbD_eq_decide)
open Sys2Proof.Proofs.Encoding (metaUnpack_metaPack metaPack_metaUnpack)

/-! ## The functions (R140 to R142) -/

/-- Settles O20, by the two halves of the round trip of R104's byte. -/
theorem metadataBijection : Obligations.MetadataBijection :=
  ⟨metaUnpack_metaPack, metaPack_metaUnpack⟩

/-- R140 as arithmetic: five fields never pack to more than a byte holds, so nothing wraps. -/
theorem metaPack_eq_ofNat (F : MetaFields) :
    metaPack F = BitVec.ofNat 8 (128 * F.flag1.toNat + 8 * F.packetId.toNat + 4 * F.longFlag.toNat
      + 2 * F.expectResponse.toNat + F.flag4.toNat) := by
  rw [← toNat_metaPack, BitVec.ofNat_toNat, BitVec.setWidth_eq]

/-- Bits 6:3 of a byte, the place of the identifier. -/
theorem idBits_eq (m : Byte) : m.extractLsb' 3 4 = BitVec.ofNat 4 (m.toNat / 8 % 16) :=
  BitVec.eq_of_toNat_eq (by simp [Nat.shiftRight_eq_div_pow])

/-- Above bit 7 a byte has no bit to cut off. -/
theorem topBit_mod_two (m : Byte) : m.toNat / 128 % 2 = m.toNat / 128 :=
  Nat.mod_eq_of_lt (by omega)

/-- R141 as arithmetic. -/
theorem metaUnpack_eq_decide (m : Byte) :
    metaUnpack m = { flag1 := decide (m.toNat / 128 = 1), packetId := BitVec.ofNat 4 (m.toNat / 8 % 16),
                     longFlag := decide (m.toNat / 4 % 2 = 1),
                     expectResponse := decide (m.toNat / 2 % 2 = 1),
                     flag4 := decide (m.toNat % 2 = 1) } := by
  simp only [metaUnpack, idBits_eq, getLsbD_eq_decide, Nat.reducePow, Nat.div_one, topBit_mod_two]

/-! ## The operations (R143, R144, R146) -/

theorem exec_mpack (s : State) :
    exec .mpack s = .next ((s.setMeta (metaPack s.mfields)).setStatus { lastop := 5 }) := rfl

theorem exec_munpk (s : State) :
    exec .munpk s = .next ((s.setMfields (metaUnpack s.metaR)).setStatus { lastop := 6 }) := rfl

/-- Settles O21: the packed byte as arithmetic, and the value of `STATUS` (R27) evaluated. -/
theorem mpackOperation : Obligations.MpackOperation := by
  intro s
  have hst : packStatus { lastop := 5 } = 0x00000005 := by decide
  refine ⟨rfl, ?_⟩
  rw [exec_mpack, metaPack_eq_ofNat, State.setStatus, hst]
  rfl

/-- Settles O22: the unpacked fields as arithmetic, and the value of `STATUS` (R27) evaluated. -/
theorem munpkOperation : Obligations.MunpkOperation := by
  intro s
  have hst : packStatus { lastop := 6 } = 0x00000006 := by decide
  refine ⟨rfl, ?_⟩
  rw [exec_munpk, metaUnpack_eq_decide, State.setStatus, hst]
  rfl

/-- Settles O23: the second operation reads only the register that the first one wrote, so the pair is the
round trip of R142. -/
theorem packUnpackReturn : Obligations.PackUnpackReturn := by
  intro s
  constructor
  · exact ⟨_, _, exec_mpack s, exec_munpk _, metaUnpack_metaPack s.mfields⟩
  · exact ⟨_, _, exec_munpk s, exec_mpack _, metaPack_metaUnpack s.metaR⟩

end Sys2Proof.Proofs.Metadata
end

section
/-! PROOFS. The serializer (`42_encode.md`): the frame that is built, as fields and as arithmetic (R151,
R153), what the deserializer finds in it (R183), the operation `ENC` (R152, R155), and `DEC` of its output
(R156). -/

namespace Sys2Proof.Proofs.Serializer

open Sys2Proof Sys2Proof.Machine
open Sys2Proof.Config (Params)
open Sys2Proof.Proofs.BlockState (lowBits_eq toNat_field dec_of_header ackreqO_of_packStatus)
open Sys2Proof.Proofs.MemoryMap (toNat_counter)
open Sys2Proof.Proofs.Encoding (metaUnpack_metaPack)
open Sys2Proof.Proofs.Metadata (metaPack_eq_ofNat)

/-! ## The built frame (R151, R153) -/

/-- The metadata fields of the frame of an id and a payload of `n` bytes (R151). -/
def frameFields (P : Params) (id : Byte) (n : Nat) : MetaFields :=
  builtFields (id.extractLsb' 0 4) (decide (P.longLimit < n + 6))

/-- The part of a built frame that its checksum covers: all but mark and checksum (R151). -/
def frameBody (P : Params) (id c : Byte) (p : List Byte) : List Byte :=
  metaPack (frameFields P id p.length) :: c :: lengthLow (BitVec.ofNat 16 p.length)
    :: lengthHigh (BitVec.ofNat 16 p.length) :: p

theorem frameEncode_eq (P : Params) (id c : Byte) (p : List Byte) :
    frameEncode P id c p = P.mark :: checksum (frameBody P id c p) :: frameBody P id c p := rfl

theorem frameEncode_metadata (P : Params) (id c : Byte) (p : List Byte) :
    (frameEncode P id c p).getD 2 0 = metaPack (frameFields P id p.length) := rfl

theorem packetId_frameFields (P : Params) (id : Byte) (n : Nat) :
    (frameFields P id n).packetId = BitVec.ofNat 4 (id.toNat % 16) := lowBits_eq 4 id

theorem toNat_packetId_frameFields (P : Params) (id : Byte) (n : Nat) :
    (frameFields P id n).packetId.toNat = id.toNat % 16 := by
  rw [packetId_frameFields, BitVec.toNat_ofNat, Nat.mod_mod]

/-- R153: bits 7 and 0 are 0 and bit 1 is 1 in every built metadata byte. -/
theorem metaPack_frameFields (P : Params) (id : Byte) (n : Nat) :
    metaPack (frameFields P id n) =
      BitVec.ofNat 8 (8 * (id.toNat % 16) + 4 * (decide (P.longLimit < n + 6)).toNat + 2) := by
  rw [metaPack_eq_ofNat, toNat_packetId_frameFields]
  exact congrArg _ (by simp [frameFields, builtFields])

/-- A length that the format can state is stored whole (R103). -/
theorem toNat_frameLength {n : Nat} (h : n ≤ 65535) : (BitVec.ofNat 16 n).toNat = n := by
  rw [BitVec.toNat_ofNat, Nat.mod_eq_of_lt (by omega)]

theorem lengthLow_ofNat {n : Nat} (h : n ≤ 65535) :
    lengthLow (BitVec.ofNat 16 n) = BitVec.ofNat 8 (n % 256) := by
  apply BitVec.eq_of_toNat_eq
  rw [toNat_lengthLow, toNat_frameLength h, BitVec.toNat_ofNat, Nat.mod_mod]

theorem lengthHigh_ofNat {n : Nat} (h : n ≤ 65535) :
    lengthHigh (BitVec.ofNat 16 n) = BitVec.ofNat 8 (n / 256) := by
  apply BitVec.eq_of_toNat_eq
  rw [toNat_lengthHigh, toNat_frameLength h, BitVec.toNat_ofNat, Nat.mod_eq_of_lt (by omega)]

/-- The checked part of a built frame, its length as arithmetic. -/
theorem frameBody_eq (P : Params) (id c : Byte) {p : List Byte} (h : p.length ≤ 65535) :
    frameBody P id c p = [metaPack (frameFields P id p.length), c, BitVec.ofNat 8 (p.length % 256),
      BitVec.ofNat 8 (p.length / 256)] ++ p := by
  rw [frameBody, lengthLow_ofNat h, lengthHigh_ofNat h]
  rfl

/-- Settles O24: the bytes of `frameBody`, each with its value. -/
theorem builtFrameProperties : Obligations.BuiltFrameProperties := by
  intro P id c p h
  refine ⟨_, _, _, _, frameEncode_eq P id c p, rfl, ?_, ?_⟩
  · have := (decide (P.longLimit < p.length + 6)).toNat_le
    rw [metaPack_frameFields, BitVec.toNat_ofNat, Nat.mod_eq_of_lt (by omega)]
  · rw [← toNat_lengthOf, lengthOf_low_high, toNat_frameLength h]

/-! ## What the deserializer finds in it (R183) -/

/-- R181 where nothing mismatches and a response is expected, as in every built frame. -/
def builtErr (cfg : DecodeConfig) (c : Byte) : Option Exc :=
  if cfg.ackFatal then some .unhandledAckRequest
  else if cfg.allowEn && !cfg.allow.getLsbD c.toNat then some .unexpectedCommand
  else none

theorem builtErr_of_ackFatal {cfg : DecodeConfig} (c : Byte) (h : cfg.ackFatal = true) :
    builtErr cfg c = some .unhandledAckRequest := if_pos h

theorem builtErr_of_not_ackFatal {cfg : DecodeConfig} (c : Byte) (h : cfg.ackFatal = false) :
    builtErr cfg c =
      if cfg.allowEn && !cfg.allow.getLsbD c.toNat then some .unexpectedCommand else none :=
  if_neg (Bool.eq_false_iff.1 h)

/-- The record that decoding a built frame gives (R183). -/
def builtDecoded (P : Params) (cfg : DecodeConfig) (id c : Byte) (p : List Byte) : Decoded where
  mark := P.mark
  rcs := checksum (frameBody P id c p)
  ccs := checksum (frameBody P id c p)
  metadata := metaPack (frameFields P id p.length)
  fields := frameFields P id p.length
  command := c
  rlen := BitVec.ofNat 16 p.length
  payload := p
  lenmis := false
  csmis := false
  ackreq := true
  unexp := cfg.allowEn && !cfg.allow.getLsbD c.toNat
  err := builtErr cfg c
  sev := if builtErr cfg c = none then .warn else .error

/-- Without a mismatch the policy does not matter. -/
theorem pickErr_of_match (hard ackFatal unexp : Bool) :
    pickErr hard false false true ackFatal unexp =
      if ackFatal then some .unhandledAckRequest else if unexp then some .unexpectedCommand else none := rfl

/-- An acknowledgement request is never `OK` (R218). -/
theorem pickSev_of_ackreq (err : Option Exc) (lenmis csmis : Bool) :
    pickSev err lenmis csmis true = if err = none then .warn else .error := by
  cases err with
  | none => simp [pickSev]
  | some x => rfl

/-- In a built frame the stored length and checksum are those that the deserializer computes. -/
theorem decodeParts_built (P : Params) (cfg : DecodeConfig) (id c : Byte) {p : List Byte}
    (h : p.length ≤ 65535) :
    decodeParts cfg P.mark (checksum (frameBody P id c p)) (metaPack (frameFields P id p.length)) c
      (lengthLow (BitVec.ofNat 16 p.length)) (lengthHigh (BitVec.ofNat 16 p.length)) p
        = builtDecoded P cfg id c p := by
  have hreq : (frameFields P id p.length).expectResponse = true := rfl
  have hccs : checksum ([metaPack (frameFields P id p.length), c, lengthLow (BitVec.ofNat 16 p.length),
      lengthHigh (BitVec.ofNat 16 p.length)] ++ p) = checksum (frameBody P id c p) := rfl
  simp only [decodeParts, metaUnpack_metaPack, lengthOf_low_high, hccs, hreq, toNat_frameLength h, ne_eq,
    not_true_eq_false, decide_false, pickErr_of_match, pickSev_of_ackreq]
  rfl

/-- R183 as an equation. -/
theorem frameDecode_frameEncode (P : Params) (cfg : DecodeConfig) (id c : Byte) {p : List Byte}
    (h : p.length ≤ 65535) (hm : P.malformedMax < p.length + 6) :
    frameDecode P (frameEncode P id c p) cfg = some (builtDecoded P cfg id c p) := by
  rw [← decodeParts_built P cfg id c h]
  exact frameDecode_header P cfg _ _ _ _ _ _ p hm

/-- Settles O30: a built frame is never `Malformed`, and `builtDecoded` has every value stated. -/
theorem decodeOfBuiltFrame : Obligations.DecodeOfBuiltFrame := by
  rintro P cfg id c p ⟨-, hmax, hmal⟩ hp hne
  have hlen : p.length ≤ 65535 := hp.trans hmax
  refine ⟨builtDecoded P cfg id c p, frameDecode_frameEncode P cfg id c hlen (by omega), rfl, rfl, rfl,
    toNat_frameLength hlen, toNat_packetId_frameFields P id _, rfl, rfl, rfl, decide_eq_true_iff, rfl, rfl, rfl,
    fun hack => ?_, fun hack hun => ?_, fun hack hun => ?_⟩
  · simp [builtDecoded, builtErr_of_ackFatal c hack]
  · have herr : builtErr cfg c = some .unexpectedCommand :=
      (builtErr_of_not_ackFatal c hack).trans (if_pos hun)
    simp [builtDecoded, herr]
  · have herr : builtErr cfg c = none :=
      (builtErr_of_not_ackFatal c hack).trans (if_neg (Bool.eq_false_iff.1 hun))
    simp [builtDecoded, herr]

/-! ## The operation `ENC` (R152, R155) -/

theorem exec_enc_of_overrun {s : State} (h : s.iovf = true ∨ 65535 < s.ilen.toNat) :
    exec .enc s = .next (raiseExc 3 .overrun s) := if_pos (by simpa using h)

theorem exec_enc_of_operand {s : State} {p : List Byte} (hov : s.iovf = false) (hlen : s.ilen.toNat ≤ 65535)
    (hop : operand s = some p) : exec .enc s = .next (encWrites Config.params s p) :=
  (if_neg (by simpa [hov] using hlen)).trans (withOperand_some hop _)

/-- What `ENC` writes, in the terms of the built frame. -/
theorem encWrites_eq {s : State} {p : List Byte} (hop : operand s = some p) :
    encWrites Config.params s p = { s with
      obuf := ofBytes (frameEncode Config.params (argId s) (argCommand s) p)
      olen := BitVec.ofNat 17 (p.length + 6), orp := 0
      hdr := headerWord Config.mark (checksum (frameBody Config.params (argId s) (argCommand s) p))
        (metaPack (frameFields Config.params (argId s) p.length)) (argCommand s)
      rlen := BitVec.ofNat 16 p.length
      csr := checksum (frameBody Config.params (argId s) (argCommand s) p)
      metaR := metaPack (frameFields Config.params (argId s) p.length)
      mfields := frameFields Config.params (argId s) p.length
      st := packStatus { lastop := 3 }, ibuf := [], ilen := 0, iovf := false } := by
  have hrlen : s.ilen.extractLsb' 0 16 = BitVec.ofNat 16 p.length := by
    rw [operand_length hop]
    exact BitVec.eq_of_toNat_eq (by simp)
  simp only [encWrites, hrlen, frameEncode_metadata, metaUnpack_metaPack, State.storeObuf, frameEncode_length]
  rfl

/-- R39 as arithmetic. -/
theorem headerWord_eq_ofNat (b0 b1 b2 b3 : Byte) : headerWord b0 b1 b2 b3 =
    BitVec.ofNat 32 (b0.toNat + 256 * b1.toNat + 65536 * b2.toNat + 16777216 * b3.toNat) := by
  rw [← toNat_headerWord, BitVec.ofNat_toNat, BitVec.setWidth_eq]

theorem argCommand_eq_ofNat (s : State) : argCommand s = BitVec.ofNat 8 (s.arg.toNat / 256) :=
  BitVec.eq_of_toNat_eq (by simp [argCommand, Nat.shiftRight_eq_div_pow])

theorem toNat_argId_mod (s : State) : (argId s).toNat % 16 = s.arg.toNat % 16 := by
  rw [argId, toNat_field]
  omega

/-- Settles O25: the two outcomes of `ENC`, with the built frame as arithmetic and the values of `STATUS`
(R27, R216) evaluated. -/
theorem encOperation : Obligations.EncOperation := by
  intro s
  refine ⟨rfl, fun h => ?_, fun p hov hlen hop => ?_⟩
  · have hst : packStatus (raisedStatus 3 .overrun) = 0x00200623 := by decide
    rw [exec_enc_of_overrun h, raiseExc_eq, hst]
  · intro long md c body cs
    have hst : packStatus { lastop := 3 } = 0x00000003 := by decide
    have hp : p.length ≤ 65535 := operand_length hop ▸ hlen
    have hmd : metaPack (frameFields Config.params (argId s) p.length) = md := by
      rw [metaPack_frameFields, toNat_argId_mod, params_longLimit]
    have hbody : frameBody Config.params (argId s) c p = body := by
      rw [frameBody_eq _ _ _ hp, hmd]
    have hfields : frameFields Config.params (argId s) p.length =
        { flag1 := false, packetId := BitVec.ofNat 4 (s.arg.toNat % 16), longFlag := long,
          expectResponse := true, flag4 := false } := by
      rw [← toNat_argId_mod, ← packetId_frameFields Config.params (argId s) p.length]
      rfl
    rw [exec_enc_of_operand hov hlen hop, encWrites_eq hop, frameEncode_eq, headerWord_eq_ofNat, hmd,
      hfields, argCommand_eq_ofNat, hbody, hst]
    rfl

/-! ## `DEC` of what `ENC` built (R156, R183) -/

/-- The output of an operation loaded back as the operand of the next one (R71). -/
def reload (t : State) : State := { t with ibuf := t.obuf, ilen := t.olen }

theorem operand_reload {t : State} {bs : List Byte} (hb : t.obuf = ofBytes bs)
    (hl : t.olen.toNat = bs.length) : operand (reload t) = some bs := by
  change readBytes t.obuf 0 t.olen.toNat = some bs
  rw [hb, hl, readBytes_ofBytes]

/-- `DEC` of a loaded built frame writes what the frame was built from (R175, R183). -/
theorem dec_of_frameEncode {s : State} {id c : Byte} {p : List Byte} (hov : s.iovf = false)
    (hp : p.length ≤ 65535) (hop : operand s = some (frameEncode Config.params id c p)) :
    exec .dec s = .next (decWrites s (builtDecoded Config.params (decodeConfig s) id c p)) := by
  rw [← decodeParts_built Config.params _ id c hp]
  exact dec_of_header hov hop

/-- R181, R216: `STATUS` of a built frame whose acknowledgement request is fatal. -/
theorem packStatus_built_of_ackFatal (P : Params) {cfg : DecodeConfig} (id c : Byte) (p : List Byte)
    (h : cfg.ackFatal = true) :
    packStatus (decodedStatus (builtDecoded P cfg id c p)) = 0x00080424 ∨
      packStatus (decodedStatus (builtDecoded P cfg id c p)) = 0x00180424 := by
  simp only [decodedStatus, builtDecoded, builtErr_of_ackFatal c h]
  cases cfg.allowEn && !cfg.allow.getLsbD c.toNat
  · exact .inl (by decide)
  · exact .inr (by decide)

theorem operand_reload_encWrites (s : State) {p : List Byte} (hp : p.length ≤ 65535) :
    operand (reload (encWrites Config.params s p)) =
      some (frameEncode Config.params (argId s) (argCommand s) p) :=
  operand_reload rfl (toNat_counter (by rw [frameEncode_length]; omega))

/-- Settles O31: `ENC` leaves the frame in `OBUF`, and every register that `DEC` of it writes gets the value
`ENC` gave it. -/
theorem encThenDecReturnsPayload : Obligations.EncThenDecReturnsPayload := by
  intro s p hov hlen hop
  have hp : p.length ≤ 65535 := operand_length hop ▸ hlen
  have hframe := operand_reload_encWrites s hp
  refine ⟨_, _, exec_enc_of_operand hov hlen hop, dec_of_frameEncode rfl hp hframe, ?_, rfl,
    toNat_counter (n := p.length) (by omega), rfl, ?_, ?_, ?_, ?_, ?_, (ackreqO_of_packStatus rfl).2 rfl,
    packStatus_built_of_ackFatal Config.params (cfg := decodeConfig s) (argId s) (argCommand s) p⟩
  · refine hframe.trans (congrArg some ?_)
    rw [encWrites_eq hop, ← argCommand_eq_ofNat, List.append_assoc,
      ← frameBody_eq Config.params (argId s) _ hp]
    rfl
  all_goals
    rw [encWrites_eq hop]
    rfl

end Sys2Proof.Proofs.Serializer
end

section
/-! PROOFS. The deserializer (`43_decode.md`): which buffers it accepts and what it does not look at (R168,
R171), the policy for a mismatch and the order of the exceptions (R177 to R181), and the operation `DEC` of a
buffer with a header (R175). -/

namespace Sys2Proof.Proofs.Deserializer

open Sys2Proof Sys2Proof.Machine
open Sys2Proof.Config (Params)
open Sys2Proof.Proofs.BlockState (getLsbD_eq_decide dec_of_header pickSev_eq_error pickSev_eq_warn)
open Sys2Proof.Proofs.Serializer (headerWord_eq_ofNat)

/-! ## The header (R171) -/

/-- A buffer without the six header bytes does not decode, whatever `MALFORMED_MAX` is. -/
theorem frameDecode_of_no_header (P : Params) (cfg : DecodeConfig) {bs : List Byte} (h : bs.length < 6) :
    frameDecode P bs cfg = none := by
  refine Option.eq_none_iff_forall_ne_some.2 fun r hr => ?_
  obtain ⟨-, m, cs, md, c, l0, l1, p, rfl, -⟩ := frameDecode_some hr
  simp only [List.length_cons] at h
  omega

/-- The mark is not among the bytes that `decodeParts` computes with. -/
theorem decodeParts_mark (cfg : DecodeConfig) (m m' cs md c l0 l1 : Byte) (p : List Byte) :
    decodeParts cfg m' cs md c l0 l1 p = { decodeParts cfg m cs md c l0 l1 p with mark := m' } := rfl

/-- Settles O29: whether a buffer decodes depends on its length, and only the reported mark on its first
byte. -/
theorem markIsNotChecked : Obligations.MarkIsNotChecked := by
  intro P cfg m m' bs
  match bs with
  | cs :: md :: c :: l0 :: l1 :: p =>
    by_cases hlong : P.malformedMax < p.length + 6
    · rw [frameDecode_header P cfg _ _ _ _ _ _ p hlong, frameDecode_header P cfg _ _ _ _ _ _ p hlong,
        decodeParts_mark cfg m m', Option.map_some]
    · have hshort (x : Byte) :
          (x :: cs :: md :: c :: l0 :: l1 :: p).length ≤ P.malformedMax := not_lt.1 hlong
      rw [frameDecode_short P cfg _ (hshort m), frameDecode_short P cfg _ (hshort m'), Option.map_none]
  | [] | [_] | [_, _] | [_, _, _] | [_, _, _, _] =>
    rw [frameDecode_of_no_header P cfg (by simp), frameDecode_of_no_header P cfg (by simp), Option.map_none]

/-! ## Mismatches and exceptions (R177 to R181) -/

theorem hardMismatch_iff (cfg : DecodeConfig) (n : Nat) :
    hardMismatch cfg n = true ↔ cfg.vpol = 2 ∨ (cfg.vpol = 1 ∧ cfg.thr < n) := by
  simp [hardMismatch]

/-- A hard mismatch goes before the other exceptions, the length before the checksum. -/
theorem pickErr_of_hard {lenmis csmis : Bool} (h : lenmis = true ∨ csmis = true)
    (ackreq ackFatal unexp : Bool) :
    pickErr true lenmis csmis ackreq ackFatal unexp =
      some (if lenmis then .lengthMismatch else .checksumMismatch) := by
  cases lenmis with
  | true => rfl
  | false => rw [h.resolve_left Bool.false_ne_true]; rfl

/-- A mismatch that is not hard is no exception. -/
theorem pickErr_of_not_hard (lenmis csmis ackreq ackFatal unexp : Bool) :
    pickErr false lenmis csmis ackreq ackFatal unexp =
      if ackreq && ackFatal then some .unhandledAckRequest
      else if unexp then some .unexpectedCommand else none := by
  simp only [pickErr, Bool.and_false, Bool.false_eq_true, if_false]

/-- Settles O28: the reported exception by the policy, and the severity by the reported exception. -/
theorem mismatchPolicy : Obligations.MismatchPolicy := by
  intro P bs cfg r hr hmis hard
  obtain ⟨-, m, cs, md, c, l0, l1, p, rfl, hparts⟩ := frameDecode_some hr
  have hhard : hardMismatch cfg (p.length + 6) = true ↔ hard := hardMismatch_iff cfg _
  have herr := decodeParts_err cfg m cs md c l0 l1 p
  have hsev := decodeParts_sev cfg m cs md c l0 l1 p
  rw [← hparts] at herr hsev
  have error_of {x : Exc} (h : r.err = some x) : r.err = some x ∧ r.sev = .error :=
    ⟨h, hsev.trans (pickSev_eq_error.2 (by simp [h]))⟩
  have err_of_not_hard (h : ¬ hard) : r.err = if r.ackreq && cfg.ackFatal then some .unhandledAckRequest
      else if r.unexp then some .unexpectedCommand else none := by
    rw [herr, Bool.eq_false_iff.2 (mt hhard.1 h), pickErr_of_not_hard]
  refine ⟨fun h => error_of ?_, fun h hack hfatal => error_of ?_, fun h hack hun => error_of ?_,
    fun h hack hun => ?_⟩
  · rw [herr, hhard.2 h, pickErr_of_hard hmis]
  · rw [err_of_not_hard h, hack, hfatal]
    rfl
  · rw [err_of_not_hard h, if_neg (by simpa using hack), if_pos hun]
  · have hnone : r.err = none := by
      rw [err_of_not_hard h, if_neg (by simpa using hack), hun]
      rfl
    exact ⟨hnone, hsev.trans (pickSev_eq_warn.2 ⟨hnone, hmis.imp_right .inl⟩)⟩

/-! ## What `DEC` finds, as arithmetic (R165, R173, R177, R179) -/

theorem lengthOf_eq_ofNat (lo hi : Byte) : lengthOf lo hi = BitVec.ofNat 16 (lo.toNat + 256 * hi.toNat) := by
  rw [← toNat_lengthOf, BitVec.ofNat_toNat, BitVec.setWidth_eq]

theorem decodeParts_lenmis (cfg : DecodeConfig) (m cs md c l0 l1 : Byte) (p : List Byte) :
    (decodeParts cfg m cs md c l0 l1 p).lenmis = decide (l0.toNat + 256 * l1.toNat ≠ p.length) := by
  rw [← toNat_lengthOf]
  rfl

theorem decodeParts_ackreq (cfg : DecodeConfig) (m cs md c l0 l1 : Byte) (p : List Byte) :
    (decodeParts cfg m cs md c l0 l1 p).ackreq = decide (md.toNat / 2 % 2 = 1) :=
  getLsbD_eq_decide md 1

/-- `CFG.VPOL` is the number of the policy (R28). -/
theorem vpol_eq_iff (s : State) {k : Nat} (hk : k < 4) :
    (decodeConfig s).vpol = BitVec.ofNat 2 k ↔ s.cfg.toNat % 4 = k := by
  rw [← BitVec.toNat_inj, BitVec.toNat_ofNat, Nat.mod_eq_of_lt hk]
  simp [decodeConfig]

theorem hardMismatch_decodeConfig (s : State) (n : Nat) :
    hardMismatch (decodeConfig s) n =
      (decide (s.cfg.toNat % 4 = 2) || (decide (s.cfg.toNat % 4 = 1) && decide (s.thr.toNat < n))) := by
  rw [Bool.eq_iff_iff, hardMismatch_iff]
  simp only [Bool.or_eq_true, Bool.and_eq_true, decide_eq_true_eq, ← vpol_eq_iff s (by decide : 2 < 4),
    ← vpol_eq_iff s (by decide : 1 < 4)]
  rfl

/-! ## `STATUS` after `DEC` (R27, R181, R216, R218) -/

theorem toNat_errCode_pickErr (hard lenmis csmis ackreq ackFatal unexp : Bool) :
    (errCode (pickErr hard lenmis csmis ackreq ackFatal unexp)).toNat =
      if lenmis && hard then 2 else if csmis && hard then 3
      else if ackreq && ackFatal then 4 else if unexp then 5 else 0 := by
  unfold pickErr
  split_ifs <;> rfl

theorem toNat_code_pickSev (err : Option Exc) (lenmis csmis ackreq : Bool) :
    (pickSev err lenmis csmis ackreq).code.toNat =
      if (errCode err).toNat ≠ 0 then 2 else if lenmis || csmis || ackreq then 1 else 0 := by
  cases err with
  | some x => cases x <;> rfl
  | none =>
    rw [if_neg (by decide), pickSev]
    split_ifs <;> rfl

theorem packStatus_decodedStatus (r : Decoded) :
    packStatus (decodedStatus r) = BitVec.ofNat 25 (4 + 16 * r.sev.code.toNat + 256 * (errCode r.err).toNat
      + 131072 * r.lenmis.toNat + 262144 * r.csmis.toNat + 524288 * r.ackreq.toNat
      + 1048576 * r.unexp.toNat) := by
  rw [← BitVec.setWidth_eq (packStatus (decodedStatus r)), ← BitVec.ofNat_toNat, toNat_packStatus]
  rfl

/-! ## The operation `DEC` (R175) -/

/-- What `DEC` writes when it extracts the fields `r`, and that it writes nothing else. -/
theorem decWrites_eq (s : State) (r : Decoded) :
    decWrites s r = { s with
      obuf := ofBytes r.payload, olen := BitVec.ofNat 17 r.payload.length, orp := 0
      hdr := headerWord r.mark r.rcs r.metadata r.command, rlen := r.rlen, csr := r.ccs, metaR := r.metadata
      mfields := r.fields, st := packStatus (decodedStatus r), ibuf := [], ilen := 0, iovf := false } := rfl

/-- Settles O27: the findings of `decodeParts` as arithmetic, and `STATUS` from them. -/
theorem decDeliversFieldsAndOutcome : Obligations.DecDeliversFieldsAndOutcome := by
  intro s m cs md c l0 l1 p hov hop ccs vpol lenmis csmis ackreq unexp hard err sev
  let r := decodeParts (decodeConfig s) m cs md c l0 l1 p
  have hlenmis : r.lenmis = lenmis := decodeParts_lenmis _ m cs md c l0 l1 p
  have hackreq : r.ackreq = ackreq := decodeParts_ackreq _ m cs md c l0 l1 p
  have herr : (errCode r.err).toNat = err := by
    rw [decodeParts_err, hlenmis, hackreq, hardMismatch_decodeConfig, toNat_errCode_pickErr]
    rfl
  have hsev : r.sev.code.toNat = sev := by
    rw [decodeParts_sev, toNat_code_pickSev, herr, hlenmis, hackreq]
    rfl
  have hrlen : r.rlen = BitVec.ofNat 16 (l0.toNat + 256 * l1.toNat) := lengthOf_eq_ofNat l0 l1
  rw [dec_of_header hov hop, decWrites_eq, packStatus_decodedStatus, headerWord_eq_ofNat, hsev, herr, hlenmis,
    hackreq, hrlen]
  rfl

end Sys2Proof.Proofs.Deserializer
end

section
/-! PROOFS. The control operations (`44_control_ops.md`): what `NOP`, `CLR` and `SRST` do (R200 to R202),
and that `SRST` and the reset input are one (R250, R251). -/

namespace Sys2Proof.Proofs.ControlOps

open Sys2Proof Sys2Proof.Machine
open Sys2Proof.Proofs.Scope (step_of_decode_ok)
open Sys2Proof.Proofs.BlockState (step_of_decode_error)

/-! ## The operations (R200 to R202) -/

theorem exec_nop (s : State) : exec .nop s = .next s := rfl

theorem exec_clr (s : State) :
    exec .clr s = .next (s.consumeIbuf.emptyObuf.setStatus { lastop := 1 }) := rfl

theorem exec_srst (s : State) : exec .srst s = .next (resetBlock s) := rfl

/-- Settles O13: the value 0 of `CMD` is `NOP`, which answers the state it was given. -/
theorem nopChangesNothing : Obligations.NopChangesNothing :=
  fun s => ⟨rfl, exec_nop s⟩

/-- Settles O14: the three updates of `CLR`, with the value of `STATUS` (R27) evaluated. -/
theorem clrEmptiesBuffersAndStatus : Obligations.ClrEmptiesBuffersAndStatus := by
  intro s
  have hst : packStatus { lastop := 1 } = 0x00000001 := by decide
  refine ⟨rfl, ?_⟩
  rw [exec_clr, State.setStatus, hst]
  rfl

/-! ## Reset (R250, R251) -/

/-- Of the state before, reset keeps what is the host's (log entries 1 and 2). -/
theorem resetBlock_eq (s : State) :
    resetBlock s = { State.reset with pending := s.pending, readData := s.readData } := rfl

/-- The reset input is no row of the opcode table. -/
theorem step_rst {s : State} {rest : List Access} (hp : s.pending = .rst :: rest) :
    step s = .next (resetBlock (s.setPending rest)) :=
  step_of_decode_error hp rfl

theorem step_srst {s : State} {rest : List Access} (hp : s.pending = .write 0 7 :: rest) :
    step s = .next (resetBlock (s.setPending rest)) := by
  rw [step_of_decode_ok hp (i := .srst) rfl, exec_srst]

/-- Settles O15: both accesses run `resetBlock` on the state with the access taken off the stream. -/
theorem srstEqualsReset : Obligations.SrstEqualsReset := by
  intro s
  refine ⟨by rw [exec_srst, resetBlock_eq], fun rest hp => ⟨?_, ?_⟩⟩
  · rw [step_rst hp, resetBlock_eq, State.setPending_pending, State.setPending_readData]
  · calc step s = .next (resetBlock (s.setPending rest)) := step_rst hp
      _ = step { s with pending := .write 0 7 :: rest } :=
        (step_srst (s := s.setPending (.write 0 7 :: rest)) rfl).symm

end Sys2Proof.Proofs.ControlOps
end

section
/-! PROOFS. The exceptions (`60_exceptions.md`): `IllegalOp` for a value of `CMD` that names no operation
(R227), and the two exceptions with which `DEC` extracts nothing, `Malformed` (R221) and `Overrun` (R226). -/

namespace Sys2Proof.Proofs.Exceptions

open Sys2Proof Sys2Proof.Machine
open Sys2Proof.Config (Params)
open Sys2Proof.Proofs.Encoding (decodeCmd_illegal)

/-! ## `IllegalOp` (R227) -/

theorem decode_illegalCmd {v : Word} (h : 8 ≤ v.toNat) : decode (.write 0 v) = .ok (.illegalCmd v) :=
  congrArg Except.ok (decodeCmd_illegal h)

theorem exec_illegalCmd (v : Word) (s : State) :
    exec (.illegalCmd v) s = .next (s.setStatus (raisedStatus (v.extractLsb' 0 4) .illegalOp)) := rfl

/-- `STATUS` of an `IllegalOp`: `ILLOP`, `ERR = 7` and `SEV = 2` above the code that was written (R27). -/
theorem packStatus_illegalOp (op : BitVec 4) :
    packStatus (raisedStatus op .illegalOp) = BitVec.ofNat 25 (0x00400720 + op.toNat) := by
  have hnat : (packStatus (raisedStatus op .illegalOp)).toNat = 0x00400720 + op.toNat := by
    have hsev : Severity.error.code.toNat = 2 := rfl
    have herr : (errCode (some .illegalOp)).toNat = 7 := rfl
    simp only [toNat_packStatus, raisedStatus, hsev, herr, reduceCtorEq, decide_false, decide_true,
      Bool.toNat_false, Bool.toNat_true]
    omega
  rw [← hnat, BitVec.ofNat_toNat, BitVec.setWidth_eq]

/-- Settles O16: the decoder's last row, and the one update of its meaning with the value of `STATUS`
evaluated. -/
theorem illegalCmdWritesStatusOnly : Obligations.IllegalCmdWritesStatusOnly := by
  intro s v hv
  have hcode : (v.extractLsb' 0 4).toNat = v.toNat % 16 := BitVec.extractLsb'_toNat ..
  refine ⟨decode_illegalCmd hv, ?_⟩
  rw [exec_illegalCmd, State.setStatus, packStatus_illegalOp, hcode]

/-! ## `DEC` without a result (R221, R226) -/

theorem exec_dec (s : State) : exec .dec s = decOp Config.params s := rfl

theorem decOp_of_iovf (P : Params) {s : State} (h : s.iovf = true) :
    decOp P s = .next (raiseExc 4 .overrun s) := if_pos h

theorem decodeOperand_of_short {P : Params} {bs : List Byte} (s : State) (h : bs.length ≤ P.malformedMax) :
    decodeOperand P s bs = raiseExc 4 .malformed s := by
  rw [decodeOperand, frameDecode_short P _ bs h]

theorem decOp_of_short {P : Params} {s : State} {bs : List Byte} (hov : s.iovf = false)
    (hop : operand s = some bs) (h : bs.length ≤ P.malformedMax) :
    decOp P s = .next (raiseExc 4 .malformed s) := by
  rw [decOp, hov, if_neg Bool.false_ne_true, withOperand_some hop, decodeOperand_of_short s h]

/-- Settles O26: the two exceptions `DEC` raises before it extracts a field, with the values of `STATUS`
(R27, R216) evaluated; the spec's `MALFORMED_MAX` is one instance. -/
theorem decWithoutResult : Obligations.DecWithoutResult := by
  intro s
  have hoverrun : packStatus (raisedStatus 4 .overrun) = 0x00200624 := by decide
  have hmalformed : packStatus (raisedStatus 4 .malformed) = 0x00010124 := by decide
  refine ⟨rfl, fun hov => ?_, fun bs hov hop hlen => ?_, fun P bs hov hop hlen => ?_⟩
  · rw [exec_dec, decOp_of_iovf _ hov, raiseExc_eq, hoverrun]
  · rw [exec_dec, decOp_of_short hov hop hlen, raiseExc_eq, hmalformed]
  · rw [decOp_of_short hov hop hlen, raiseExc_eq, hmalformed]

end Sys2Proof.Proofs.Exceptions
end

section
/-! PROOFS. Reset and hazards (`70_reset_and_hazards.md`): the block never acts by itself (R267). -/

namespace Sys2Proof.Proofs.ResetAndHazards

open Sys2Proof Sys2Proof.Machine

/-- Settles O6: of the ways a step can go, only the quiescent one starts from an empty stream. -/
theorem quiescentWithoutAccess : Obligations.QuiescentWithoutAccess := by
  intro s hp
  obtain ⟨-, hstep⟩ | ⟨a, rest, hcons, -⟩ := step_cases s
  · exact hstep
  · exact absurd (hp.symm.trans hcons) (List.cons_ne_nil a rest).symm

end Sys2Proof.Proofs.ResetAndHazards
end

section
/-! PROOFS. The model's own stop (log entry 4): each read of a buffer index that holds no value faults. -/

namespace Sys2Proof.Proofs.UnheldBytes

open Sys2Proof Sys2Proof.Machine

/-- The byte that `DOUT` would return is not held. -/
theorem popByte_of_unheld {s : State} (hlt : s.orp.toNat < s.olen.toNat)
    (hb : readByte s.obuf s.orp.toNat = none) : popByte s = .fault .unwrittenByte := by
  rw [popByte, if_pos hlt, hb]

theorem withOperand_none {s : State} (h : operand s = none) (k : List Byte → State) :
    withOperand s k = .fault .unwrittenByte := by
  rw [withOperand, h]

/-- The shape of `CSUM`, `ENC` and `DEC` (R134, R152, R175): where the condition `c` of `Overrun` does not
hold, the operand is read, and its fault is the operation's. -/
theorem overrunOrOperand_of_unheld {s : State} {c : Prop} [Decidable c] (hc : ¬ c) (hop : operand s = none)
    (op : BitVec 4) (k : List Byte → State) :
    (if c then .next (raiseExc op .overrun s) else withOperand s k : Result) = .fault .unwrittenByte :=
  (if_neg hc).trans (withOperand_none hop k)

/-- Settles O35: `DOUT` by its own read, and the three buffer operations by the read of their operand, since
none of them raises `Overrun` here (R134, R155, R175). -/
theorem unheldByteFaults : Obligations.UnheldByteFaults := by
  intro s
  refine ⟨popByte_of_unheld, fun hov hop => ?_⟩
  have hin : ¬ s.iovf = true := Bool.eq_false_iff.1 hov
  refine ⟨overrunOrOperand_of_unheld hin hop _ _, overrunOrOperand_of_unheld hin hop _ _, fun hlen => ?_⟩
  have hfits : ¬ (s.iovf || decide (65535 < s.ilen.toNat)) = true := by simpa [hov] using hlen
  exact overrunOrOperand_of_unheld hfits hop _ _

end Sys2Proof.Proofs.UnheldBytes
end
